-- ==== Sys2Proof/Word.lean ====
section
/-! DEFINITION. The widths of the block's values (00_scope.md R7, 10_state.md R13). -/

namespace Sys2Proof

/-- Every datapath value is an unsigned 8-bit byte (R7). -/
abbrev Byte := BitVec 8

/-- The write cursor is held in 7 bits (R15). -/
abbrev Cursor := BitVec 7

/-- The parser's control state is encoded in 3 bits (R19). -/
abbrev StateCode := BitVec 3

end Sys2Proof
end

