-- ==== Sys2Proof/Config.lean ====
section
/-! DEFINITION. The implementation parameters of 00_scope.md R6 and the values the spec leaves open.
An `opaque` constant has no body: no proof can use what it is. -/

namespace Sys2Proof.Config

/-- `StatusCap`: the usable bytes of the status buffer (R6, D12). UNVERIFIED literal of the source (log 8). -/
abbrev statusCap : Nat := 79

/-- `SENT`: the status sentinel byte, the percent sign in ASCII (R6, R11; PRESUMED, log 19). -/
abbrev sent : Byte := 0x25#8

/-- `OPEN`: the frame-open byte, the left square bracket in ASCII (R6, R11; PRESUMED, log 19). -/
abbrev frameOpen : Byte := 0x5B#8

/-- `LenWidth`: the width of the remaining-length counter (R6, D3). UNVERIFIED (log 8). -/
abbrev lenWidth : Nat := 8

/-- `DISC_STR`: the 10 bytes of DISCONNECT in ASCII (R6, R11; PRESUMED, log 19). -/
def discStr : List Byte :=
  [0x44#8, 0x49#8, 0x53#8, 0x43#8, 0x4F#8, 0x4E#8, 0x4E#8, 0x45#8, 0x43#8, 0x54#8]

/-- `OPEN_STR`: the 11 bytes of STREAM_OPEN in ASCII (R6, R11; PRESUMED, log 19). -/
def openStr : List Byte :=
  [0x53#8, 0x54#8, 0x52#8, 0x45#8, 0x41#8, 0x4D#8, 0x5F#8, 0x4F#8, 0x50#8, 0x45#8, 0x4E#8]

/-- `BOTH_MATCH_RESULT`: left OPEN by the spec (R6, R63, D10, U6), so it is opaque (log 7). -/
opaque bothMatchResult : Bool

/-- `FeedPerQuery`: how many transport bytes one DATAREADY may take (R6, D8). UNVERIFIED (log 8). -/
abbrev feedPerQuery : Nat := 1

/-- What `F.cursor` is after the RESET of the given number: any value (R89, U1; log 3). -/
opaque resetCursor : Nat → Nat

/-- What `F.peek` is after the RESET of the given number: any value (R89, U1; log 3). -/
opaque resetPeek : Nat → Byte

/-- What `P.len` is after the RESET of the given number: any value (R89, U1; log 3). -/
opaque resetLen : Nat → BitVec lenWidth

/-- What `P.type` is after the RESET of the given number: any value (R89, U1; log 3). -/
opaque resetType : Nat → Byte

/-- What `P.acc` is after the RESET of the given number: any value (R89, U1; log 3). -/
opaque resetAcc : Nat → Byte

/-- What the status buffer holds at an index after the RESET of the given number, until the index is
written: any value (R26, R89, U1; log 4). Arguments: the number of the RESET, the index. -/
opaque resetBuf : Nat → Nat → Byte

end Sys2Proof.Config
end

