-- ==== Sys2Proof/Syntax.lean ====
section
/-! DEFINITION. The operations and byte classes of spec/opcode_table.json (30_encoding.md), the parser's
state names (R19), and the steps of a program (R48). -/

namespace Sys2Proof

/-- One constructor per row of spec/opcode_table.json. A row whose byte is fixed has no operand; a row that
takes any byte, or every byte but one, has the byte as its operand. -/
inductive Instr where
  /-- RESET (R89). -/
  | reset
  /-- F.DATAREADY (R55). -/
  | dataReady
  /-- F.READ: one READ-step (R56). -/
  | read
  /-- C.IS_CONNECTED (R65). -/
  | isConnected
  /-- FEED: one transport byte into the filter (R49). -/
  | feed (b : Byte)
  /-- F.OPEN: the opening sentinel (R50). -/
  | fOpen
  /-- F.INBAND: an in-band byte (R51). -/
  | fInband (b : Byte)
  /-- F.CLOSE: the closing sentinel (R54). -/
  | fClose
  /-- F.APPEND: a status byte stored (R52). -/
  | fAppend (b : Byte)
  /-- F.DROP: a status byte discarded (R53). -/
  | fDrop (b : Byte)
  /-- C.UPDATE: the status-message handler, given the stored bytes of the completed message (R59). -/
  | cUpdate (message : List Byte)
  /-- CONSUME: one byte into the parser (R66). -/
  | consume (b : Byte)
  /-- P.IDLE_OPEN: frame open (R67). -/
  | pIdleOpen
  /-- P.IDLE_IGNORE: a byte outside any frame (R68). -/
  | pIdleIgnore (b : Byte)
  /-- P.SEQ: the sequence digit (R69). -/
  | pSeq (b : Byte)
  /-- P.ID: the type id (R70). -/
  | pId (b : Byte)
  /-- P.SIZE0: the length's high digit (R71). -/
  | pSize0 (b : Byte)
  /-- P.SIZE1: the length's low digit (R72). -/
  | pSize1 (b : Byte)
  /-- P.PAY0: a payload byte's high digit (R73). -/
  | pPay0 (b : Byte)
  /-- P.PAY1: a payload byte's low digit, which emits an action (R74). -/
  | pPay1 (b : Byte)
  deriving DecidableEq, Repr

/-- The operations of the interface table (R36), by name. `feed` and `update` are internal. -/
inductive Operation where
  | reset | dataReady | read | isConnected | consume | feed | update
  deriving DecidableEq, Repr

/-- The seven legal values of `P.state`, by the source's names (R12, R19). -/
inductive ParserState where
  | idle | sequenceNumber | packetId | payloadSize0 | payloadSize1 | payload0 | payload1
  deriving DecidableEq, Repr

/-- One step of a program (R48). `TX` is one step a byte: each step of the transport appends one byte (R9). -/
inductive ProgramStep where
  /-- RST: the host issues RESET. -/
  | rst
  /-- TX: the transport receives one byte. -/
  | tx (b : Byte)
  /-- DR: the consumer issues DATAREADY. -/
  | dr
  /-- RD: the consumer issues READ. -/
  | rd
  /-- CB: the consumer issues CONSUME with a byte. -/
  | cb (b : Byte)
  /-- IC: the consumer issues IS_CONNECTED. -/
  | ic
  /-- PIPE: the consumer drains the transport through the filter into the parser (R48, R79). -/
  | pipe
  deriving DecidableEq, Repr

end Sys2Proof
end

