-- ==== Sys2Proof/WellFormed.lean ====
section
/-! DEFINITION. Which instructions the encoding tables of 30_encoding.md can produce. -/

namespace Sys2Proof

/-- A row that takes every byte but one has an operand other than that byte (R37, R38); the message handed
to C.UPDATE has at most `StatusCap` bytes (R59). Every other instruction is well formed: no byte is illegal
(R47). -/
def Instr.wellFormed : Instr → Bool
  | .fInband b => b != Config.sent
  | .fAppend b => b != Config.sent
  | .fDrop b => b != Config.sent
  | .pIdleIgnore b => b != Config.frameOpen
  | .cUpdate m => decide (m.length ≤ Config.statusCap)
  | .reset | .dataReady | .read | .isConnected | .feed _ | .fOpen | .fClose | .consume _ | .pIdleOpen
  | .pSeq _ | .pId _ | .pSize0 _ | .pSize1 _ | .pPay0 _ | .pPay1 _ => true

end Sys2Proof
end

