-- ==== Sys2Proof/Decode.lean ====
section
/-! DEFINITION. Decoding and encoding (30_encoding.md R36 to R38, spec/opcode_table.json).

The block has no instruction words. What selects a row of the table is what stands at the block's inputs
when the row runs: for a byte class the input byte TOGETHER WITH the state condition of its row, for an
operation its name and its input bytes. `Symbol` is that (log 13). -/

namespace Sys2Proof

/-- What selects one row of spec/opcode_table.json. -/
inductive Symbol where
  /-- An operation of R36, by its name, with its input bytes in order. -/
  | request (op : Operation) (inputs : List Byte)
  /-- A byte at the filter's input, with `F.buffering` and `F.cursor` as they stand (R37). -/
  | filterByte (buffering : Bool) (cursor : Cursor) (b : Byte)
  /-- A byte at the parser's input, with `P.state` as it stands (R38). -/
  | parserByte (state : StateCode) (b : Byte)
  deriving DecidableEq, Repr

/-- Why a symbol selects no row. -/
inductive DecodeError where
  /-- The operation was issued with the wrong number of input bytes (R36). -/
  | wrongInputs (op : Operation)
  /-- UPDATE was given more than `StatusCap` bytes (R59). -/
  | messageTooLong
  /-- `P.state` is not one of the seven legal values (R19, R66). -/
  | illegalParserState
  /-- No filter row accepts the byte. R37's five cases take every one, so this never happens. -/
  | noFilterRow
  deriving DecidableEq, Repr

/-- The 3-bit encoding of the parser's states (R19, D6). -/
def ParserState.code : ParserState → StateCode
  | .idle => 0#3
  | .sequenceNumber => 1#3
  | .packetId => 2#3
  | .payloadSize0 => 3#3
  | .payloadSize1 => 4#3
  | .payload0 => 5#3
  | .payload1 => 6#3

/-- The state a code stands for; 7 stands for none (R19). -/
def ParserState.ofCode (c : StateCode) : Option ParserState :=
  if c = 0#3 then some .idle
  else if c = 1#3 then some .sequenceNumber
  else if c = 2#3 then some .packetId
  else if c = 3#3 then some .payloadSize0
  else if c = 4#3 then some .payloadSize1
  else if c = 5#3 then some .payload0
  else if c = 6#3 then some .payload1
  else none

/-- The byte pattern of a row: `match`, `mask` and `match_sense` of spec/opcode_table.json. -/
structure BytePattern where
  mask : Byte
  pattern : Byte
  /-- true: the byte must match; false: it must NOT match. -/
  sense : Bool
  deriving DecidableEq, Repr

/-- Whether a byte fits a pattern (30_encoding.md, opening). -/
def BytePattern.accepts (p : BytePattern) (b : Byte) : Bool :=
  ((b &&& p.mask) == p.pattern) == p.sense

/-- The cursor condition of a filter row (R37). -/
inductive CursorCondition where
  | any | belowCap | fromCap
  deriving DecidableEq, Repr

/-- Whether a cursor meets a condition (R37). -/
def CursorCondition.holds (c : CursorCondition) (cursor : Cursor) : Bool :=
  match c with
  | .any => true
  | .belowCap => decide (cursor.toNat < Config.statusCap)
  | .fromCap => decide (Config.statusCap ≤ cursor.toNat)

/-- One row of R37. -/
structure FilterRow where
  byte : BytePattern
  buffering : Bool
  cursor : CursorCondition
  make : Byte → Instr

/-- One row of R38. -/
structure ParserRow where
  byte : BytePattern
  state : ParserState
  make : Byte → Instr

/-- The five filter cases (R37). -/
def filterRows : List FilterRow :=
  [ ⟨⟨0xFF#8, 0x25#8, true⟩, false, .any, fun _ => .fOpen⟩,
    ⟨⟨0xFF#8, 0x25#8, false⟩, false, .any, .fInband⟩,
    ⟨⟨0xFF#8, 0x25#8, true⟩, true, .any, fun _ => .fClose⟩,
    ⟨⟨0xFF#8, 0x25#8, false⟩, true, .belowCap, .fAppend⟩,
    ⟨⟨0xFF#8, 0x25#8, false⟩, true, .fromCap, .fDrop⟩ ]

/-- The eight parser cases (R38). -/
def parserRows : List ParserRow :=
  [ ⟨⟨0xFF#8, 0x5B#8, true⟩, .idle, fun _ => .pIdleOpen⟩,
    ⟨⟨0xFF#8, 0x5B#8, false⟩, .idle, .pIdleIgnore⟩,
    ⟨⟨0x00#8, 0x00#8, true⟩, .sequenceNumber, .pSeq⟩,
    ⟨⟨0x00#8, 0x00#8, true⟩, .packetId, .pId⟩,
    ⟨⟨0x00#8, 0x00#8, true⟩, .payloadSize0, .pSize0⟩,
    ⟨⟨0x00#8, 0x00#8, true⟩, .payloadSize1, .pSize1⟩,
    ⟨⟨0x00#8, 0x00#8, true⟩, .payload0, .pPay0⟩,
    ⟨⟨0x00#8, 0x00#8, true⟩, .payload1, .pPay1⟩ ]

/-- Whether a filter row takes a byte in a state (R37). -/
def FilterRow.accepts (r : FilterRow) (buffering : Bool) (cursor : Cursor) (b : Byte) : Bool :=
  r.buffering == buffering && r.cursor.holds cursor && r.byte.accepts b

/-- Whether a parser row takes a byte in a state (R38). -/
def ParserRow.accepts (r : ParserRow) (state : StateCode) (b : Byte) : Bool :=
  r.state.code == state && r.byte.accepts b

/-- The operation a request names, when it has the inputs R36 lists for it. -/
def decodeRequest (op : Operation) (inputs : List Byte) : Except DecodeError Instr :=
  match op, inputs with
  | .reset, [] => .ok .reset
  | .dataReady, [] => .ok .dataReady
  | .read, [] => .ok .read
  | .isConnected, [] => .ok .isConnected
  | .consume, [b] => .ok (.consume b)
  | .feed, [b] => .ok (.feed b)
  | .update, m => if m.length ≤ Config.statusCap then .ok (.cUpdate m) else .error .messageTooLong
  | op, _ => .error (.wrongInputs op)

/-- The row a symbol selects (R36 to R38). -/
def decode : Symbol → Except DecodeError Instr
  | .request op inputs => decodeRequest op inputs
  | .filterByte buffering cursor b =>
    match filterRows.find? (fun r => r.accepts buffering cursor b) with
    | some r => .ok (r.make b)
    | none => .error .noFilterRow
  | .parserByte state b =>
    match parserRows.find? (fun r => r.accepts state b) with
    | some r => .ok (r.make b)
    | none => .error .illegalParserState

/-- A symbol that selects a well-formed instruction. Where a row takes any cursor, or a range of cursors,
the lowest is written. -/
def encode : Instr → Symbol
  | .reset => .request .reset []
  | .dataReady => .request .dataReady []
  | .read => .request .read []
  | .isConnected => .request .isConnected []
  | .feed b => .request .feed [b]
  | .fOpen => .filterByte false 0#7 Config.sent
  | .fInband b => .filterByte false 0#7 b
  | .fClose => .filterByte true 0#7 Config.sent
  | .fAppend b => .filterByte true 0#7 b
  | .fDrop b => .filterByte true (BitVec.ofNat 7 Config.statusCap) b
  | .cUpdate m => .request .update m
  | .consume b => .request .consume [b]
  | .pIdleOpen => .parserByte ParserState.idle.code Config.frameOpen
  | .pIdleIgnore b => .parserByte ParserState.idle.code b
  | .pSeq b => .parserByte ParserState.sequenceNumber.code b
  | .pId b => .parserByte ParserState.packetId.code b
  | .pSize0 b => .parserByte ParserState.payloadSize0.code b
  | .pSize1 b => .parserByte ParserState.payloadSize1.code b
  | .pPay0 b => .parserByte ParserState.payload0.code b
  | .pPay1 b => .parserByte ParserState.payload1.code b

/-- The operation a program step issues (R48). TX and PIPE issue none: TX is the transport's own step, and
PIPE is a loop of the consumer's. -/
def ProgramStep.symbol? : ProgramStep → Option Symbol
  | .rst => some (.request .reset [])
  | .dr => some (.request .dataReady [])
  | .rd => some (.request .read [])
  | .cb b => some (.request .consume [b])
  | .ic => some (.request .isConnected [])
  | .tx _ => none
  | .pipe => none

/-- The byte of a table word: a byte class of the table has 8 bits, an operation none. -/
def tableByte? (nbits w : Nat) : Option Byte :=
  if nbits = 8 then some (BitVec.ofNat 8 w) else none

/-- A byte of the table as a symbol. The table gives a byte class its byte alone, without the unit that reads
it and without the state condition. DESIGN CHOICE (log 12): the sentinel is read as the filter's input and
every other byte as the parser's, both in the state that RESET leaves. -/
def tableSymbol (b : Byte) : Symbol :=
  if b = Config.sent then .filterByte false 0#7 b else .parserByte ParserState.idle.code b

/-- The instruction the decoder reads from a word of spec/opcode_table.json (log 12). -/
def decodeTableWord (nbits w : Nat) : Option Instr :=
  match tableByte? nbits w with
  | some b =>
    match decode (tableSymbol b) with
    | .ok i => some i
    | .error _ => none
  | none => none

end Sys2Proof
end

