-- ==== Sys2Proof/Machine/State.lean ====
section
/-! DEFINITION. The machine's state as plain data (10_state.md), what stops a step, and the state after
reset. -/

namespace Sys2Proof.Machine

/-- The status buffer: the indices written since the last reset, with their bytes, indices strictly rising.
An index that is not listed holds no value that the block has written; what it reads as is
`Sys2Proof.Machine.bufByte` (log 4). -/
abbrev Memory := List Host.Cell

/-- The status filter's registers (R13 to R17, R26). -/
structure FilterRegs where
  /-- `F.buffering`: a status message is open (R14). -/
  buffering : Bool
  /-- `F.cursor`: the write cursor into the status buffer (R15). -/
  cursor : Cursor
  /-- `F.ready`: `F.peek` holds an in-band byte the consumer has not read (R16). -/
  ready : Bool
  /-- `F.peek`: the one-byte lookahead slot (R17). -/
  peek : Byte
  /-- `F.buf[0..StatusCap]` (R26). -/
  buf : Memory
  deriving DecidableEq, Repr

/-- The packet parser's registers (R19 to R22). -/
structure ParserRegs where
  /-- `P.state`, in its 3-bit encoding (R19). -/
  state : StateCode
  /-- `P.len`: the remaining-length counter, in hex-digit characters (R20). -/
  len : BitVec Config.lenWidth
  /-- `P.type` (R21). -/
  typeId : Byte
  /-- `P.acc`: the nibble pair being decoded (R22). -/
  acc : Byte
  deriving DecidableEq, Repr

/-- Where the consumer stands in the loop PIPE (R79; log 10). -/
inductive PipePhase where
  /-- No PIPE in progress. -/
  | off
  /-- At the loop's test. -/
  | test
  /-- DATAREADY answered 1; READ comes next. -/
  | read
  /-- READ returned this byte; CONSUME comes next. -/
  | consume (b : Byte)
  deriving DecidableEq, Repr

/-- An output of a step (R36). -/
inductive Output where
  /-- DATAREADY's answer (R55). -/
  | dataReady (pending : Bool)
  /-- The byte READ finishes with (R56). -/
  | read (b : Byte)
  /-- IS_CONNECTED's answer (R65). -/
  | isConnected (connected : Bool)
  /-- The parser's `Action(type, data)` (R66, R74). -/
  | action (typeId data : Byte)
  /-- UPDATE's message event for the generic handler (R59, R64). -/
  | message (msg : List Byte)
  deriving DecidableEq, Repr

/-- The block's registers, the state of the external agents that its rules read, and the model's own fields. -/
structure State where
  /-- The status filter (R13). -/
  F : FilterRegs
  /-- `C.connected` (R18). -/
  connected : Bool
  /-- The packet parser (R13). -/
  P : ParserRegs
  /-- The transport's queue of received bytes, oldest first (R9, R24). -/
  queue : List Byte
  /-- A READ is in progress (R56). -/
  reading : Bool
  /-- The consumer's PIPE loop (R79). -/
  pipe : PipePhase
  /-- The model's own: the steps the outside agents take, in order (R48; log 1). -/
  script : List ProgramStep
  /-- The model's own: at each point where an operation in progress and an outside agent could both move,
  whether the outside agent goes first (R9; log 17). -/
  interleave : List Bool
  /-- The model's own: the outputs of the step just taken, in order (log 9). -/
  out : List Output
  /-- The model's own: the number of RESET operations so far, which the free values are read with (log 3). -/
  epoch : Nat
  deriving DecidableEq, Repr

/-- The model's own stops, in states no run reaches. The block itself raises no exception (R80). -/
inductive Fault where
  /-- `P.state` is 7. Raised by every operation but RESET (R19, R66, U11). Safe: no run reaches it. -/
  | illegalParserState
  /-- R25 (I1) is broken: `F.ready` while buffering. Raised by every operation but RESET (U12). Safe. -/
  | readyWhileBuffering
  /-- R25 (I2) is broken: `F.cursor` over `StatusCap` while buffering. Raised by every operation but RESET
  (U12). Safe. -/
  | cursorPastCapacity
  /-- R25 (I4) is broken: `PAYLOAD_1` with `P.len = 0`. Raised by every operation but RESET (U12). Safe. -/
  | noDigitsLeft
  /-- A status-buffer access outside `0..StatusCap`, which R26 does not define. Raised by the accesses of
  F.APPEND and F.CLOSE. Safe: no run reaches it. -/
  | bufferIndex
  deriving DecidableEq, Repr

/-- Instructions to which the model gives no meaning where they stand. -/
inductive Refusal where
  /-- The instruction has no meaning in the model yet. Raised by the dispatch alone. Safe. -/
  | notModelled (mnemonic : String)
  /-- A byte-class row (or FEED) is run where the state condition or the byte condition of its row does not
  hold, so it is not the case R37 or R38 selects. Raised by the rows' own meanings; a dispatcher never runs
  one so. Safe (log 6). -/
  | notSelected (mnemonic : String)
  /-- The step's request decodes to no instruction. Raised by the step; the steps of R48 all decode, so it
  never happens. Safe. -/
  | undecodable
  deriving DecidableEq, Repr

/-- What a meaning answers. -/
abbrev Result := Host.Outcome State Fault Refusal

/-- The machine right after reset (R89). The spec gives `F.buffering`, `F.ready`, `C.connected` (0) and
`P.state` (IDLE). `F.cursor`, `F.peek`, `P.len`, `P.type` and `P.acc` are 0 by DESIGN CHOICE, unsafe (log 2).
No byte of the buffer is listed (log 4). The agents' and the model's own fields are empty (log 1). -/
def State.reset : State where
  F := { buffering := false, cursor := 0#7, ready := false, peek := 0#8, buf := [] }
  connected := false
  P := { state := 0#3, len := 0#8, typeId := 0#8, acc := 0#8 }
  queue := []
  reading := false
  pipe := .off
  script := []
  interleave := []
  out := []
  epoch := 0

end Sys2Proof.Machine
end

