-- ==== Sys2Proof/Machine/Operands.lean ====
section
/-! DEFINITION. How an operand byte is read: hex digits (30_encoding.md R39 to R42) and message strings
(41_connection_state.md R59, R60). -/

namespace Sys2Proof.Machine

/-- `trunc8(v) = v mod 256` (R10). -/
def trunc8 (v : Nat) : Byte := BitVec.ofNat 8 v

/-- `HexNib(b)` (R39): an inclusive digit test on the raw byte, else the letter formula modulo 256, not masked
to 4 bits. UNVERIFIED for bytes that are no hex digits (log 8). -/
def hexNib (b : Byte) : Byte :=
  if 0x30 ≤ b.toNat ∧ b.toNat ≤ 0x39 then b - 0x30#8
  else (b &&& 0x5F#8) - 0x41#8 + 10#8

/-- The high digit of a pair: `trunc8(HexNib(b) << 4)`, the shift in unbounded precision (R41, R10). -/
def highDigit (b : Byte) : Byte := trunc8 ((hexNib b).toNat <<< 4)

/-- The low digit put into a pair: all 8 bits of its HexNib value are ORed in (R41, R42). -/
def withLowDigit (high b : Byte) : Byte := high ||| hexNib b

/-- An 8-bit value held in the remaining-length counter (R20). -/
def lenOf (v : Byte) : BitVec Config.lenWidth := v.setWidth Config.lenWidth

/-- The counter with the low digit ORed in (R72). -/
def lenWithLowDigit (l : BitVec Config.lenWidth) (b : Byte) : BitVec Config.lenWidth :=
  l ||| lenOf (hexNib b)

/-- The message as a NUL-terminated string: the bytes before the first 0x00 (R59, D9). -/
def cString (m : List Byte) : List Byte := m.takeWhile (fun b => b != 0x00#8)

/-- `Contains(msg, s)`: `s` occurs as a contiguous run of `msg`, byte for byte (R10, R60). -/
def containsRun : List Byte → List Byte → Bool
  | [], s => s.isEmpty
  | b :: rest, s => s.isPrefixOf (b :: rest) || containsRun rest s

end Sys2Proof.Machine
end

