-- ==== Sys2Proof/Machine/Flags.lean ====
section
/-! DEFINITION. The values the rules compute for flags and counters: the connection flag
(41_connection_state.md), the transport's readiness, the remaining-length counter. -/

namespace Sys2Proof.Machine

/-- What UPDATE makes of `C.connected`, from whether the message holds DISCONNECT (`d`) and STREAM_OPEN (`s`)
(R59, R61 to R64). -/
def connectedAfter (d s old : Bool) : Bool :=
  if d && !s then false
  else if s && !d then true
  else if s && d then Config.bothMatchResult
  else old

/-- `C.connected` after UPDATE, from the message as a string (R59). -/
def connectedBy (msg : List Byte) (old : Bool) : Bool :=
  connectedAfter (containsRun msg Config.discStr) (containsRun msg Config.openStr) old

/-- `T.ready`: the transport's queue is not empty (R10). -/
def transportReady (s : State) : Bool := !s.queue.isEmpty

/-- The counter less one, modulo its width (R10, R20). -/
def lenLess (l : BitVec Config.lenWidth) : BitVec Config.lenWidth := l - 1

/-- The parser's state after a payload digit: IDLE when no digit remains, else the other payload state
(R73, R74). -/
def afterDigit (remaining : BitVec Config.lenWidth) (other : ParserState) : StateCode :=
  if remaining = 0 then ParserState.idle.code else other.code

end Sys2Proof.Machine
end

