-- ==== Sys2Proof/Machine/Ops.lean ====
section
/-! DEFINITION. The named operations over registers, the status buffer, the transport and the outputs, and the
checks every meaning begins with. The block takes no exception (60_exceptions.md R80, R85), so no operation
for taking one or returning from one stands here. -/

namespace Sys2Proof.Machine

/-- The registers with `F.buffering` replaced. -/
def FilterRegs.withBuffering (r : FilterRegs) (v : Bool) : FilterRegs := { r with buffering := v }

/-- The registers with `F.cursor` replaced. -/
def FilterRegs.withCursor (r : FilterRegs) (v : Cursor) : FilterRegs := { r with cursor := v }

/-- The registers with `F.ready` replaced. -/
def FilterRegs.withReady (r : FilterRegs) (v : Bool) : FilterRegs := { r with ready := v }

/-- The registers with `F.peek` replaced. -/
def FilterRegs.withPeek (r : FilterRegs) (v : Byte) : FilterRegs := { r with peek := v }

/-- The registers with the status buffer replaced. -/
def FilterRegs.withBuf (r : FilterRegs) (v : Memory) : FilterRegs := { r with buf := v }

/-- The registers with `P.state` replaced. -/
def ParserRegs.withState (r : ParserRegs) (v : StateCode) : ParserRegs := { r with state := v }

/-- The registers with `P.len` replaced. -/
def ParserRegs.withLen (r : ParserRegs) (v : BitVec Config.lenWidth) : ParserRegs := { r with len := v }

/-- The registers with `P.type` replaced. -/
def ParserRegs.withTypeId (r : ParserRegs) (v : Byte) : ParserRegs := { r with typeId := v }

/-- The registers with `P.acc` replaced. -/
def ParserRegs.withAcc (r : ParserRegs) (v : Byte) : ParserRegs := { r with acc := v }

/-- The state with the filter's registers replaced. -/
def State.withF (s : State) (v : FilterRegs) : State := { s with F := v }

/-- The state with `C.connected` replaced. -/
def State.withConnected (s : State) (v : Bool) : State := { s with connected := v }

/-- The state with the parser's registers replaced. -/
def State.withP (s : State) (v : ParserRegs) : State := { s with P := v }

/-- The state with the transport's queue replaced. -/
def State.withQueue (s : State) (v : List Byte) : State := { s with queue := v }

/-- The state with the READ-in-progress flag replaced. -/
def State.withReading (s : State) (v : Bool) : State := { s with reading := v }

/-- The state with the PIPE phase replaced. -/
def State.withPipe (s : State) (v : PipePhase) : State := { s with pipe := v }

/-- The state with the script replaced. -/
def State.withScript (s : State) (v : List ProgramStep) : State := { s with script := v }

/-- The state with the interleaving replaced. -/
def State.withInterleave (s : State) (v : List Bool) : State := { s with interleave := v }

/-- The state with one more output of this step. -/
def State.emit (s : State) (o : Output) : State := { s with out := s.out ++ [o] }

/-- The state with no output, as a step begins (log 9). -/
def State.clearOut (s : State) : State := { s with out := [] }

/-- Go on with the next state, or stop as the first outcome did. -/
def andThen (r : Result) (k : State → Result) : Result :=
  match r with
  | .next s => k s
  | .fault f => .fault f
  | .refused e => .refused e

/-! ## The checks -/

/-- The invariant of R25 the state breaks, if any. (I5) is carried by the type: there is one peek slot. -/
def brokenInvariant (s : State) : Option Fault :=
  if s.F.ready && s.F.buffering then some .readyWhileBuffering
  else if s.F.buffering && decide (Config.statusCap < s.F.cursor.toNat) then some .cursorPastCapacity
  else if (ParserState.ofCode s.P.state).isNone then some .illegalParserState
  else if s.P.state == ParserState.payload1.code && s.P.len == 0 then some .noDigitsLeft
  else none

/-- Fault on a state that breaks an invariant (R25, U12), else go on. -/
def checked (s : State) (k : Result) : Result :=
  match brokenInvariant s with
  | some f => .fault f
  | none => k

/-- A row of R37 or R38: its meaning where its condition holds; elsewhere the row is not the selected case and
has no meaning (log 6). -/
def whenSelected (mnemonic : String) (s : State) (selected : Bool) (k : Result) : Result :=
  checked s (if selected then k else .refused (.notSelected mnemonic))

/-! ## The status buffer (20_memory.md) -/

/-- Indices strictly rising from a bound on, all within `0..StatusCap`. -/
def Memory.risingFrom : Nat → Memory → Bool
  | _, [] => true
  | lo, c :: rest => decide (lo ≤ c.1) && decide (c.1 ≤ Config.statusCap) && Memory.risingFrom (c.1 + 1) rest

/-- The canonical form: indices strictly rising, all within `0..StatusCap` (R26). -/
def Memory.wf (m : Memory) : Bool := Memory.risingFrom 0 m

/-- The byte written at an index since the last reset, if one was. -/
def Memory.lookup : Memory → Nat → Option Byte
  | [], _ => none
  | c :: rest, i => if c.1 = i then some c.2 else Memory.lookup rest i

/-- The memory with a byte written at an index, in canonical form. -/
def Memory.insert : Memory → Nat → Byte → Memory
  | [], i, v => [(i, v)]
  | c :: rest, i, v =>
    if i < c.1 then (i, v) :: c :: rest
    else if i = c.1 then (i, v) :: rest
    else c :: Memory.insert rest i v

/-- What an index of the buffer reads as: the byte written there, or, where nothing was written since the
last RESET, a free value (R26, U1; log 4). -/
def bufByte (s : State) (i : Nat) : Byte :=
  (Memory.lookup s.F.buf i).getD (Config.resetBuf s.epoch i)

/-- `MemRead(i, 1)`, defined for `0..StatusCap` only (R26). -/
def memRead (s : State) (i : Nat) : Except Fault Byte :=
  if i ≤ Config.statusCap then .ok (bufByte s i) else .error .bufferIndex

/-- `MemWrite(i, 1, v)`, defined for `0..StatusCap` only (R26). -/
def memWrite (s : State) (i : Nat) (v : Byte) : Result :=
  if i ≤ Config.statusCap then .next (s.withF (s.F.withBuf (Memory.insert s.F.buf i v)))
  else .fault .bufferIndex

/-- `F.buf[0 .. n-1]`, read byte by byte (R27). -/
def readMessage (s : State) : Nat → Except Fault (List Byte)
  | 0 => .ok []
  | n + 1 =>
    match readMessage s n with
    | .error f => .error f
    | .ok m =>
      match memRead s n with
      | .error f => .error f
      | .ok b => .ok (m ++ [b])

/-! ## The transport (R9, R10) -/

/-- The transport's step: one byte appended to its queue (R9). -/
def receive (b : Byte) (s : State) : State := s.withQueue (s.queue ++ [b])

/-! ## The connection flag -/

/-- UPDATE(m) (R59): the flag from the message as a string, and the message event. -/
def update (m : List Byte) (s : State) : State :=
  (s.withConnected (connectedBy (cString m) s.connected)).emit (.message (cString m))

/-! ## RESET -/

/-- Every register of the block in its reset state, for the RESET of number `n` (R89). Where the rule says
"any value" the register takes a free value (log 3); the cursor's stays within its range (R15). -/
def resetRegisters (n : Nat) (s : State) : State :=
  { s with
    F := { buffering := false
           cursor := BitVec.ofNat 7 (Config.resetCursor n % (Config.statusCap + 1))
           ready := false
           peek := Config.resetPeek n
           buf := [] }
    connected := false
    P := { state := ParserState.idle.code
           len := Config.resetLen n
           typeId := Config.resetType n
           acc := Config.resetAcc n }
    epoch := n }

/-- A READ in progress is abandoned and returns nothing (R89 (a)), and so is the consumer's PIPE (log 10). -/
def abandonConsumer (s : State) : State := (s.withReading false).withPipe .off

end Sys2Proof.Machine
end

