-- ==== Sys2Proof/Machine/Connection.lean ====
section
/-! DEFINITION. The connection flag's operations (41_connection_state.md). -/

namespace Sys2Proof.Machine

/-- UPDATE(m) (R59 to R64). -/
def execCUpdate (m : List Byte) (s : State) : Result :=
  checked s (.next (update m s))

/-- IS_CONNECTED: returns `C.connected`, with no side effect (R65). -/
def execIsConnected (s : State) : Result :=
  checked s (.next (s.emit (.isConnected s.connected)))

end Sys2Proof.Machine
end

