-- ==== Sys2Proof/Machine/Filter.lean ====
section
/-! DEFINITION. The status filter's cases and FEED, and the consumer's DATAREADY and READ
(40_status_filter.md). -/

namespace Sys2Proof.Machine

/-- F.OPEN: the opening sentinel (R50). -/
def execFOpen (s : State) : Result :=
  whenSelected "F.OPEN" s (!s.F.ready && !s.F.buffering)
    (.next (s.withF ((s.F.withBuffering true).withCursor 0#7)))

/-- F.INBAND: an in-band byte (R51). -/
def execFInband (b : Byte) (s : State) : Result :=
  whenSelected "F.INBAND" s (!s.F.ready && !s.F.buffering && b != Config.sent)
    (.next (s.withF ((s.F.withPeek b).withReady true)))

/-- The cursor moved on by one (R52). -/
def advanceCursor (s : State) : State := s.withF (s.F.withCursor (s.F.cursor + 1))

/-- F.APPEND: a status byte stored (R52). -/
def execFAppend (b : Byte) (s : State) : Result :=
  whenSelected "F.APPEND" s
    (s.F.buffering && b != Config.sent && decide (s.F.cursor.toNat < Config.statusCap))
    (andThen (memWrite s s.F.cursor.toNat b) (fun t => .next (advanceCursor t)))

/-- F.DROP: a status byte discarded, with no state change (R53). -/
def execFDrop (b : Byte) (s : State) : Result :=
  whenSelected "F.DROP" s
    (s.F.buffering && b != Config.sent && decide (Config.statusCap ≤ s.F.cursor.toNat))
    (.next s)

/-- The message a closing sentinel completes: `F.buf[0 .. n-1]`, handed to UPDATE in the same step (R54). -/
def closeMessage (n : Nat) (s : State) : Result :=
  match readMessage s n with
  | .ok m => .next (update m (s.withF (s.F.withBuffering false)))
  | .error f => .fault f

/-- F.CLOSE: the closing sentinel. The terminator is written at the cursor, buffering ends, and UPDATE runs
within this step (R54, R84). -/
def execFClose (s : State) : Result :=
  whenSelected "F.CLOSE" s s.F.buffering
    (andThen (memWrite s s.F.cursor.toNat 0x00#8) (closeMessage s.F.cursor.toNat))

/-- FEED: one transport byte into the filter, by exactly one of the five cases. It runs only when
`F.ready = 0` (R49). -/
def execFeed (b : Byte) (s : State) : Result :=
  whenSelected "FEED" s (!s.F.ready)
    (if !s.F.buffering then
      if b = Config.sent then execFOpen s else execFInband b s
    else
      if b = Config.sent then execFClose s
      else if s.F.cursor.toNat < Config.statusCap then execFAppend b s
      else execFDrop b s)

/-- Up to `n` transport bytes fed, as long as no in-band byte is pending and the transport has one
(R55, with `FeedPerQuery` = n). -/
def feedUpTo : Nat → State → Result
  | 0, s => .next s
  | n + 1, s =>
    if s.F.ready then .next s
    else
      match s.queue with
      | [] => .next s
      | b :: rest => andThen (execFeed b (s.withQueue rest)) (feedUpTo n)

/-- The effect DATAREADY has on the state, without its answer (R55). READ has it too (R56). -/
def pollFilter (s : State) : Result := checked s (feedUpTo Config.feedPerQuery s)

/-- DATAREADY: it answers `F.ready` as it stands after at most one FEED (R55). -/
def execDataReady (s : State) : Result :=
  andThen (pollFilter s) (fun t => .next (t.emit (.dataReady t.F.ready)))

/-- How a READ-step ends (R56): with a byte pending READ finishes with it and clears `F.ready`, leaving
`F.peek`; with none READ is held and stays in progress. -/
def finishOrHold (s : State) : State :=
  if s.F.ready then ((s.withF (s.F.withReady false)).withReading false).emit (.read s.F.peek)
  else s.withReading true

/-- READ: one READ-step (R56). -/
def execRead (s : State) : Result :=
  andThen (pollFilter s) (fun t => .next (finishOrHold t))

end Sys2Proof.Machine
end

