-- ==== Sys2Proof/Machine/Parser.lean ====
section
/-! DEFINITION. The packet parser's cases and CONSUME (42_packet_parser.md). -/

namespace Sys2Proof.Machine

/-- Whether the parser is in a state. -/
def parserIn (s : State) (p : ParserState) : Bool := s.P.state == p.code

/-- P.IDLE_OPEN: frame open; no other register is cleared (R67). -/
def execPIdleOpen (s : State) : Result :=
  whenSelected "P.IDLE_OPEN" s (parserIn s .idle)
    (.next (s.withP (s.P.withState ParserState.sequenceNumber.code)))

/-- P.IDLE_IGNORE: a byte outside any frame; no state change (R68). -/
def execPIdleIgnore (b : Byte) (s : State) : Result :=
  whenSelected "P.IDLE_IGNORE" s (parserIn s .idle && b != Config.frameOpen) (.next s)

/-- P.SEQ: the sequence digit is neither checked nor stored, so the meaning does not use the byte (R69). -/
def execPSeq (_ : Byte) (s : State) : Result :=
  whenSelected "P.SEQ" s (parserIn s .sequenceNumber)
    (.next (s.withP (s.P.withState ParserState.packetId.code)))

/-- P.ID: the type id, whatever the byte (R70). -/
def execPId (b : Byte) (s : State) : Result :=
  whenSelected "P.ID" s (parserIn s .packetId)
    (.next (s.withP ((s.P.withTypeId b).withState ParserState.payloadSize0.code)))

/-- P.SIZE0: the length's high digit (R71). -/
def execPSize0 (b : Byte) (s : State) : Result :=
  whenSelected "P.SIZE0" s (parserIn s .payloadSize0)
    (.next (s.withP ((s.P.withLen (lenOf (highDigit b))).withState ParserState.payloadSize1.code)))

/-- P.SIZE1: the length's low digit; the next state is PAYLOAD_0 whatever the length (R72). -/
def execPSize1 (b : Byte) (s : State) : Result :=
  whenSelected "P.SIZE1" s (parserIn s .payloadSize1)
    (.next (s.withP ((s.P.withLen (lenWithLowDigit s.P.len b)).withState ParserState.payload0.code)))

/-- P.PAY0: a payload byte's high digit (R73). -/
def execPPay0 (b : Byte) (s : State) : Result :=
  whenSelected "P.PAY0" s (parserIn s .payload0)
    (.next (s.withP (((s.P.withAcc (highDigit b)).withLen (lenLess s.P.len)).withState
      (afterDigit (lenLess s.P.len) .payload1))))

/-- P.PAY1: a payload byte's low digit; emits one Action (R74). -/
def execPPay1 (b : Byte) (s : State) : Result :=
  whenSelected "P.PAY1" s (parserIn s .payload1)
    (.next ((s.withP (((s.P.withAcc (withLowDigit s.P.acc b)).withLen (lenLess s.P.len)).withState
      (afterDigit (lenLess s.P.len) .payload0))).emit
      (.action s.P.typeId (withLowDigit s.P.acc b))))

/-- CONSUME: one byte into the parser, by exactly one of the eight cases; `P.state` 7 is a fault (R66). -/
def execConsume (b : Byte) (s : State) : Result :=
  checked s
    (match ParserState.ofCode s.P.state with
    | some .idle => if b = Config.frameOpen then execPIdleOpen s else execPIdleIgnore b s
    | some .sequenceNumber => execPSeq b s
    | some .packetId => execPId b s
    | some .payloadSize0 => execPSize0 b s
    | some .payloadSize1 => execPSize1 b s
    | some .payload0 => execPPay0 b s
    | some .payload1 => execPPay1 b s
    | none => .fault .illegalParserState)

end Sys2Proof.Machine
end

