-- ==== Sys2Proof/Machine/System.lean ====
section
/-! DEFINITION. RESET (70_reset_and_hazards.md). -/

namespace Sys2Proof.Machine

/-- RESET: every register of the block to its reset state, in any state; a READ in progress is abandoned; the
transport's queue is untouched (R89, R90). -/
def execReset (s : State) : Result :=
  .next (abandonConsumer (resetRegisters (s.epoch + 1) s))

end Sys2Proof.Machine
end

