-- ==== Sys2Proof/Machine/Dispatch.lean ====
section
/-! DEFINITION. One arm per row of spec/opcode_table.json. -/

namespace Sys2Proof.Machine

/-- The meaning of one instruction. -/
def exec (i : Instr) (s : State) : Host.Outcome State Fault Refusal :=
  match i with
  | .reset => Sys2Proof.Machine.execReset s
  | .dataReady => Sys2Proof.Machine.execDataReady s
  | .read => Sys2Proof.Machine.execRead s
  | .isConnected => Sys2Proof.Machine.execIsConnected s
  | .feed b => Sys2Proof.Machine.execFeed b s
  | .fOpen => Sys2Proof.Machine.execFOpen s
  | .fInband b => Sys2Proof.Machine.execFInband b s
  | .fClose => Sys2Proof.Machine.execFClose s
  | .fAppend b => Sys2Proof.Machine.execFAppend b s
  | .fDrop b => Sys2Proof.Machine.execFDrop b s
  | .cUpdate m => Sys2Proof.Machine.execCUpdate m s
  | .consume b => Sys2Proof.Machine.execConsume b s
  | .pIdleOpen => Sys2Proof.Machine.execPIdleOpen s
  | .pIdleIgnore b => Sys2Proof.Machine.execPIdleIgnore b s
  | .pSeq b => Sys2Proof.Machine.execPSeq b s
  | .pId b => Sys2Proof.Machine.execPId b s
  | .pSize0 b => Sys2Proof.Machine.execPSize0 b s
  | .pSize1 b => Sys2Proof.Machine.execPSize1 b s
  | .pPay0 b => Sys2Proof.Machine.execPPay0 b s
  | .pPay1 b => Sys2Proof.Machine.execPPay1 b s

end Sys2Proof.Machine
end

