-- ==== Sys2Proof/Machine/Schedule.lean ====
section
/-! DEFINITION. Who moves next (00_scope.md R9), the program steps (30_encoding.md R48), the loop PIPE
(42_packet_parser.md R79), and how one table byte is placed for the next step. -/

namespace Sys2Proof.Machine

/-- Decode a request and run it. -/
def runSymbol (w : Symbol) (s : State) : Result :=
  match decode w with
  | .ok i => exec i s
  | .error _ => .refused .undecodable

/-- One step of PIPE (R79): DATAREADY while the transport or the filter has a byte; after an answer of 1,
READ; then CONSUME of the byte READ returned. The loop ends when its test fails (log 10). -/
def pipeStep (s : State) : Result :=
  match s.pipe with
  | .off => .next s
  | .test =>
    if transportReady s || s.F.ready then
      andThen (runSymbol (.request .dataReady []) s)
        (fun t => .next (t.withPipe (if t.F.ready then .read else .test)))
    else .next (s.withPipe .off)
  | .read =>
    andThen (runSymbol (.request .read []) s)
      (fun t => .next (t.withPipe (if t.reading then .read else .consume t.F.peek)))
  | .consume b =>
    andThen (runSymbol (.request .consume [b]) s) (fun t => .next (t.withPipe .test))

/-- Whether an operation of the consumer is in progress. -/
def consumerBusy (s : State) : Bool := s.reading || s.pipe != .off

/-- The next step of the operation in progress: PIPE's, or READ's next READ-step (R56). -/
def continueOperation (s : State) : Result :=
  if s.pipe = .off then runSymbol (.request .read []) s else pipeStep s

/-- A READ in progress that can do nothing: no byte pending and none in the transport (R56 (c)). -/
def readHeld (s : State) : Bool := s.reading && !s.F.ready && s.queue.isEmpty

/-- Whether a program step is the transport's or the host's, which may fall between the steps of an operation
in progress (R9, R89 (a)). -/
def isOutside : ProgramStep → Bool
  | .tx _ => true
  | .rst => true
  | .dr | .rd | .cb _ | .ic | .pipe => false

/-- A program step begins: an operation of R36, the transport's step, or PIPE. -/
def issue (e : ProgramStep) (s : State) : Result :=
  match e.symbol? with
  | some w => runSymbol w s
  | none =>
    match e with
    | .tx b => .next (receive b s)
    | .rst | .dr | .rd | .cb _ | .ic | .pipe => pipeStep (s.withPipe .test)

/-- With an operation in progress and an outside step next in the script: the outside step goes if READ is
held, and else as `interleave` says (log 17). -/
def advanceBusy (e : ProgramStep) (rest : List ProgramStep) (s : State) : Result :=
  if isOutside e then
    if readHeld s then issue e (s.withScript rest)
    else if s.interleave.headD false then issue e ((s.withScript rest).withInterleave s.interleave.tail)
    else continueOperation (s.withInterleave s.interleave.tail)
  else continueOperation s

/-- One step of the whole, its outputs not yet cleared. An operation in progress goes on until it ends, and no
other operation of the consumer begins before (R56 (d)). With nothing in progress and nothing in the script
nobody moves (log 11). -/
def advance (s : State) : Result :=
  if consumerBusy s then
    match s.script with
    | [] => continueOperation s
    | e :: rest => advanceBusy e rest s
  else
    match s.script with
    | [] => .next s
    | e :: rest => issue e (s.withScript rest)

/-- The state in which the very next step runs a byte of the table as `tableSymbol` reads it (log 12): the
sentinel waits in the transport for a DATAREADY of a filter that is not buffering and has no byte pending;
any other byte is given to CONSUME with the parser in IDLE. -/
def placeByte (b : Byte) (s : State) : State :=
  if b = Config.sent then
    (((abandonConsumer s).withF ((s.F.withBuffering false).withReady false)).withQueue
      (b :: s.queue)).withScript (.dr :: s.script)
  else
    ((abandonConsumer s).withP (s.P.withState ParserState.idle.code)).withScript (.cb b :: s.script)

end Sys2Proof.Machine
end

