-- ==== Sys2Proof/Machine/Step.lean ====
section
/-! DEFINITION. The step function, and the placing of a table word. -/

namespace Sys2Proof.Machine

/-- One step: one agent moves (R8, R9). The outputs of the step before are gone (log 9). -/
def step (s : State) : Host.Outcome State Fault Refusal :=
  advance s.clearOut

/-- `s` with one word of spec/opcode_table.json placed so that the very next step runs it (log 12). A word of
a row that has no bits places nothing. -/
def State.withFetchWord (s : State) (nbits w : Nat) : State :=
  match tableByte? nbits w with
  | some b => placeByte b s
  | none => s

end Sys2Proof.Machine
end

