-- ==== Sys2Proof/Safety.lean ====
section
/-! DEFINITION. What counts as a good state, and the terms in which claims speak of runs, streams and frames. -/

namespace Sys2Proof.Machine

/-- The invariants of 10_state.md R25. (I5), at most one pending in-band byte, is carried by the type. -/
structure Legal (s : State) : Prop where
  /-- (I1) -/
  readyNotBuffering : s.F.ready = true → s.F.buffering = false
  /-- (I2) -/
  cursorInBuffer : s.F.buffering = true → s.F.cursor.toNat ≤ Config.statusCap
  /-- (I3) -/
  stateInRange : s.P.state.toNat ≤ 6
  /-- (I4) -/
  digitsLeft : s.P.state = ParserState.payload1.code → s.P.len ≠ 0

/-- The invariant every step keeps: R25, the buffer's canonical form, and what the operations in progress
rely on. -/
structure StepInv (s : State) : Prop where
  legal : Legal s
  /-- The status buffer is in canonical form, within its range (R26, R31). -/
  bufWf : Memory.wf s.F.buf = true
  /-- Every byte of an open message was written by the current message and is no sentinel (R26, R46). -/
  stored : s.F.buffering = true → ∀ i < s.F.cursor.toNat,
    ∃ b, Memory.lookup s.F.buf i = some b ∧ b ≠ Config.sent
  /-- A pending in-band byte is no sentinel (R57 (b)). -/
  pendingInBand : s.F.ready = true → s.F.peek ≠ Config.sent
  /-- A READ stays in progress only while no byte is pending (R56). -/
  readingNotReady : s.reading = true → s.F.ready = false
  /-- A READ left in progress between steps is the consumer's own, not PIPE's: PIPE's READ finishes in one
  step (R79). -/
  readingNotPipe : s.reading = true → s.pipe = .off
  /-- PIPE turns to READ only with a byte pending (R79). -/
  pipeReadReady : s.pipe = .read → s.F.ready = true

/-- The fields that only the agents' own steps and RESET change. -/
structure SameSchedule (s t : State) : Prop where
  pipe : t.pipe = s.pipe
  script : t.script = s.script
  interleave : t.interleave = s.interleave
  epoch : t.epoch = s.epoch

/-- A list of instructions run one after another, stopping at the first that does not answer a next state. -/
def execAll : List Instr → State → Result
  | [], s => .next s
  | i :: rest, s => andThen (exec i s) (execAll rest)

/-- The in-band bytes of a transport stream, given whether a status message is open at its start (R46, R57). -/
def inBandBytes : Bool → List Byte → List Byte
  | _, [] => []
  | false, b :: rest => if b = Config.sent then inBandBytes true rest else b :: inBandBytes false rest
  | true, b :: rest => if b = Config.sent then inBandBytes false rest else inBandBytes true rest

/-- The bytes READ returned, among some outputs. -/
def readBytes : List Output → List Byte
  | [] => []
  | .read b :: rest => b :: readBytes rest
  | _ :: rest => readBytes rest

/-- A hex digit, upper or lower case (R39, R40 (a)). -/
def isHexDigit (b : Byte) : Bool :=
  decide (0x30 ≤ b.toNat ∧ b.toNat ≤ 0x39) || decide (0x41 ≤ b.toNat ∧ b.toNat ≤ 0x46)
    || decide (0x61 ≤ b.toNat ∧ b.toNat ≤ 0x66)

/-- The actions of a frame's payload: one for each full pair of bytes, in order; a last odd byte gives none
(R42, R77). -/
def payloadActions (typeId : Byte) : List Byte → List Output
  | a :: b :: rest => .action typeId (withLowDigit (highDigit a) b) :: payloadActions typeId rest
  | _ => []

/-- The actions R78 gives a payload of hex digits: `16 * HexNib(p_2j) + HexNib(p_2j+1)`. -/
def hexPairActions (typeId : Byte) : List Byte → List Output
  | a :: b :: rest =>
    .action typeId (BitVec.ofNat 8 (16 * (hexNib a).toNat + (hexNib b).toNat)) :: hexPairActions typeId rest
  | _ => []

end Sys2Proof.Machine
end

