-- ==== Sys2Proof/Certificates/Slice0/Obligations.lean ====
section
/-! DEFINITION. The statements about the model, taken from the numbered rules of spec/. -/

open Sys2Proof Sys2Proof.Machine

/-! ## Encoding -/

/-- Decoding what `encode` writes gives every well-formed instruction back (R36 to R38). The form of a
symbol is the model's choice (log 13). -/
def Obligations.DecodeEncodeRoundTrip : Prop :=
  ∀ i : Instr, i.wellFormed = true → decode (encode i) = .ok i

/-- Symbols of the tables' cases, written out, decode to the instructions they stand for (R36 to R38, R19).
The form of a symbol is the model's choice (log 13), and so are the two errors: that an operation with the
wrong number of inputs is refused (log 13), and that `P.state` 7 is (log 5). -/
def Obligations.TableWordsDecode : Prop :=
  decode (.filterByte false 0#7 0x25#8) = .ok .fOpen ∧
  decode (.filterByte false 5#7 0x5B#8) = .ok (.fInband 0x5B#8) ∧
  decode (.filterByte true 11#7 0x25#8) = .ok .fClose ∧
  decode (.filterByte true 78#7 0x41#8) = .ok (.fAppend 0x41#8) ∧
  decode (.filterByte true 79#7 0x4E#8) = .ok (.fDrop 0x4E#8) ∧
  decode (.parserByte 0#3 0x5B#8) = .ok .pIdleOpen ∧
  decode (.parserByte 0#3 0x5D#8) = .ok (.pIdleIgnore 0x5D#8) ∧
  decode (.parserByte 2#3 0x25#8) = .ok (.pId 0x25#8) ∧
  decode (.parserByte 6#3 0x62#8) = .ok (.pPay1 0x62#8) ∧
  decode (.parserByte 7#3 0x00#8) = .error .illegalParserState ∧
  decode (.request .consume [0x5B#8]) = .ok (.consume 0x5B#8) ∧
  decode (.request .consume []) = .error (.wrongInputs .consume)

/-- Every byte falls in exactly one of the filter's five cases, the one R37 gives. -/
def Obligations.ExactlyOneFilterCase : Prop :=
  ∀ (buffering : Bool) (cursor : Cursor) (b : Byte),
    (filterRows.filter (fun r => r.accepts buffering cursor b)).length = 1 ∧
    decode (.filterByte buffering cursor b) =
      .ok (if buffering = false then (if b = 0x25#8 then .fOpen else .fInband b)
           else if b = 0x25#8 then .fClose
           else if cursor.toNat < 79 then .fAppend b else .fDrop b)

/-- In each of the seven legal states every byte falls in exactly one of the parser's eight cases, the one
R38 gives. -/
def Obligations.ExactlyOneParserCase : Prop :=
  ∀ (p : ParserState) (b : Byte),
    (parserRows.filter (fun r => r.accepts p.code b)).length = 1 ∧
    decode (.parserByte p.code b) =
      .ok (match p with
        | .idle => if b = 0x5B#8 then .pIdleOpen else .pIdleIgnore b
        | .sequenceNumber => .pSeq b
        | .packetId => .pId b
        | .payloadSize0 => .pSize0 b
        | .payloadSize1 => .pSize1 b
        | .payload0 => .pPay0 b
        | .payload1 => .pPay1 b)

/-! ## Hex digits, strings, the buffer -/

/-- HexNib is the formula of R39: `b - 0x30` for a digit, else `(b & 0x5F) +8 0xC9`. That the digit test is
inclusive and on the raw byte (D5), and that the letter branch is modulo 256 and not masked (D4), are the
spec's own decisions (log 8). -/
def Obligations.HexNibFormula : Prop :=
  ∀ b : Byte, hexNib b =
    if 0x30 ≤ b.toNat ∧ b.toNat ≤ 0x39 then b - 0x30#8 else (b &&& 0x5F#8) + 0xC9#8

/-- HexNib decodes the hex digits of both cases, ignores bits 5 and 7 of a byte that is no digit, and gives
a byte that is no hex digit a value under 16 exactly when `b & 0x5F` is in 0x40..0x46 (R40 (a) to (c), the
spec's own inference from R39; for bytes that are no hex digits it rests on the decisions D4 and D5, log 8).
-/
def Obligations.HexNibProperties : Prop :=
  (∀ n : Fin 10, hexNib (BitVec.ofNat 8 (0x30 + n)) = BitVec.ofNat 8 n) ∧
  (∀ n : Fin 6, hexNib (BitVec.ofNat 8 (0x41 + n)) = BitVec.ofNat 8 (10 + n) ∧
    hexNib (BitVec.ofNat 8 (0x61 + n)) = BitVec.ofNat 8 (10 + n)) ∧
  (∀ b : Byte, ¬ (0x30 ≤ b.toNat ∧ b.toNat ≤ 0x39) → hexNib b = hexNib (b &&& 0x5F#8)) ∧
  (∀ b : Byte, isHexDigit b = false →
    ((hexNib b).toNat < 16 ↔ 0x40 ≤ (b &&& 0x5F#8).toNat ∧ (b &&& 0x5F#8).toNat ≤ 0x46))

/-- Two digits make `trunc8((h << 4) | l)`, whatever the bytes; for hex digits that is `16 * h + l` (R41,
R42; for bytes that are no hex digits the spec's own decision D4, log 8). -/
def Obligations.DigitPairIsTruncated : Prop :=
  ∀ d1 d2 : Byte,
    withLowDigit (highDigit d1) d2 =
      BitVec.ofNat 8 (((hexNib d1).toNat <<< 4) ||| (hexNib d2).toNat) ∧
    lenWithLowDigit (lenOf (highDigit d1)) d2 = withLowDigit (highDigit d1) d2 ∧
    (isHexDigit d1 = true → isHexDigit d2 = true →
      (withLowDigit (highDigit d1) d2).toNat = 16 * (hexNib d1).toNat + (hexNib d2).toNat)

/-- The message as a string is what stands before its first 0x00, or all of it (R59; that the handler reads
the message so is the spec's own decision D9, log 8). -/
def Obligations.StringEndsAtFirstNul : Prop :=
  ∀ m : List Byte, ∃ rest : List Byte, m = cString m ++ rest ∧ (∀ b ∈ cString m, b ≠ 0x00#8) ∧
    (rest = [] ∨ rest.head? = some 0x00#8)

/-- `Contains` holds exactly when the run stands somewhere in the message, byte for byte; so in a string of
at most 79 bytes DISCONNECT can start at 69 at the latest and STREAM_OPEN at 68 (R60; the 79 is the
parameter of D12, log 8). -/
def Obligations.ContainsIsContiguousMatch : Prop :=
  (∀ msg run : List Byte, containsRun msg run = true ↔
    ∃ i, i + run.length ≤ msg.length ∧ ∀ j, j < run.length → msg[i + j]? = run[j]?) ∧
  (∀ (msg : List Byte) (i : Nat), msg.length ≤ Config.statusCap →
    (i + Config.discStr.length ≤ msg.length → i ≤ 69) ∧
    (i + Config.openStr.length ≤ msg.length → i ≤ 68))

/-- A buffer access within 0..79 is defined, a write is read back and leaves every other index alone, and an
access past 79 stops (R26: "defined only for"; the stop is the model's, log 5). -/
def Obligations.BufferReadAfterWrite : Prop :=
  ∀ (s : State) (i : Nat) (v : Byte),
    (i ≤ 79 → ∃ t, memWrite s i v = .next t ∧ memRead t i = .ok v ∧
      ∀ j, j ≠ i → bufByte t j = bufByte s j) ∧
    (79 < i → memWrite s i v = .fault .bufferIndex ∧ memRead s i = .error .bufferIndex)

/-! ## The filter's cases -/

/-- F.OPEN sets `F.buffering` and puts the cursor at the start; nothing else changes (R50). -/
def Obligations.OpenStartsAMessage : Prop :=
  ∀ s : State, Legal s → s.F.ready = false → s.F.buffering = false →
    exec .fOpen s = .next { s with F := { s.F with buffering := true, cursor := 0#7 } }

/-- F.INBAND puts any byte but the sentinel in the peek slot and sets `F.ready`; nothing else changes (R51).
-/
def Obligations.InbandExposesTheByte : Prop :=
  ∀ (s : State) (b : Byte), Legal s → s.F.ready = false → s.F.buffering = false → b ≠ 0x25#8 →
    exec (.fInband b) s = .next { s with F := { s.F with peek := b, ready := true } }

/-- F.APPEND stores the byte at the cursor, moves the cursor on by one, and changes no other byte of the
buffer and no other field (R52). That the buffer bound is 79 is the spec's inference from the 79 usable
bytes (D12, log 8). -/
def Obligations.AppendStoresTheByte : Prop :=
  ∀ (s : State) (b : Byte), Legal s → s.F.buffering = true → b ≠ 0x25#8 → s.F.cursor.toNat < 79 →
    ∃ t, exec (.fAppend b) s = .next t ∧
      t.F.cursor.toNat = s.F.cursor.toNat + 1 ∧
      bufByte t s.F.cursor.toNat = b ∧
      (∀ i, i ≠ s.F.cursor.toNat → bufByte t i = bufByte s i) ∧
      t = { s with F := { s.F with cursor := t.F.cursor, buf := t.F.buf } }

/-- F.DROP changes nothing (R53). -/
def Obligations.DropChangesNothing : Prop :=
  ∀ (s : State) (b : Byte), Legal s → s.F.buffering = true → b ≠ 0x25#8 → 79 ≤ s.F.cursor.toNat →
    exec (.fDrop b) s = .next s

/-- F.CLOSE writes the terminator at the cursor, ends buffering, and runs UPDATE on the bytes before the
cursor in the same step; no other byte of the buffer and no other field changes (R54). That UPDATE runs
within this step, and on the bytes before the first 0x00, are the spec's own decisions D22 and D9 (log 8).
-/
def Obligations.CloseCompletesTheMessage : Prop :=
  ∀ s : State, Legal s → s.F.buffering = true →
    let m := (List.range s.F.cursor.toNat).map (bufByte s)
    ∃ t u, exec .fClose s = .next t ∧ exec (.cUpdate m) { s with F := t.F } = .next u ∧ t = u ∧
      t.F.buffering = false ∧
      bufByte t s.F.cursor.toNat = 0x00#8 ∧
      (∀ i, i ≠ s.F.cursor.toNat → bufByte t i = bufByte s i) ∧
      t.connected = connectedBy (cString m) s.connected ∧
      t.out = s.out ++ [.message (cString m)] ∧
      t = { s with F := { s.F with buffering := false, buf := t.F.buf }, connected := t.connected,
                   out := t.out }

/-- FEED runs the one row its byte decodes to in the filter's state, and that row answers a next state which
leaves the parser and the agents alone (R49). -/
def Obligations.FeedRunsTheDecodedCase : Prop :=
  ∀ (s : State) (b : Byte), Legal s → s.F.ready = false →
    ∃ i t, decode (.filterByte s.F.buffering s.F.cursor b) = .ok i ∧
      exec (.feed b) s = .next t ∧ exec i s = .next t ∧
      t.P = s.P ∧ t.queue = s.queue ∧ t.reading = s.reading ∧ SameSchedule s t

/-! ## The connection flag -/

/-- DISCONNECT alone clears the flag; the message event goes out; nothing else changes (R59, R61). That the
message ends at its first 0x00 and that the event goes out are the spec's own decisions D9 and D13 (log 8).
-/
def Obligations.DisconnectClearsTheFlag : Prop :=
  ∀ (s : State) (m : List Byte), Legal s →
    containsRun (cString m) Config.discStr = true → containsRun (cString m) Config.openStr = false →
    exec (.cUpdate m) s = .next { s with connected := false, out := s.out ++ [.message (cString m)] }

/-- STREAM_OPEN alone sets the flag; the message event goes out; nothing else changes (R59, R62). That the
message ends at its first 0x00 and that the event goes out are the spec's own decisions D9 and D13 (log 8).
-/
def Obligations.StreamOpenSetsTheFlag : Prop :=
  ∀ (s : State) (m : List Byte), Legal s →
    containsRun (cString m) Config.discStr = false → containsRun (cString m) Config.openStr = true →
    exec (.cUpdate m) s = .next { s with connected := true, out := s.out ++ [.message (cString m)] }

/-- With both substrings the flag becomes the open parameter `BOTH_MATCH_RESULT`, whatever it is (R59, R63,
D10; log 7). That the message ends at its first 0x00 and that the event goes out are the spec's own
decisions D9 and D13 (log 8). -/
def Obligations.BothMatchesTakeTheParameter : Prop :=
  ∀ (s : State) (m : List Byte), Legal s →
    containsRun (cString m) Config.discStr = true → containsRun (cString m) Config.openStr = true →
    exec (.cUpdate m) s =
      .next { s with connected := Config.bothMatchResult, out := s.out ++ [.message (cString m)] }

/-- With neither substring the flag keeps its value; the message event goes out all the same (R64; the event
is the spec's own decision D13, the end at the first 0x00 its decision D9, log 8). -/
def Obligations.OtherMessagesKeepTheFlag : Prop :=
  ∀ (s : State) (m : List Byte), Legal s →
    containsRun (cString m) Config.discStr = false → containsRun (cString m) Config.openStr = false →
    exec (.cUpdate m) s = .next { s with out := s.out ++ [.message (cString m)] }

/-- IS_CONNECTED answers the flag and has no side effect (R65). -/
def Obligations.IsConnectedReturnsTheFlag : Prop :=
  ∀ s : State, Legal s →
    exec .isConnected s = .next { s with out := s.out ++ [.isConnected s.connected] }

/-- The flag changes only by UPDATE, alone or inside the CLOSE of a message, and by RESET (R18; that RESET
writes it is R89). -/
def Obligations.OnlyUpdateChangesTheFlag : Prop :=
  ∀ (i : Instr) (s t : State), exec i s = .next t → t.connected ≠ s.connected →
    i = .reset ∨ (∃ m, i = .cUpdate m) ∨
    (s.F.buffering = true ∧ (i = .fClose ∨ i = .feed 0x25#8 ∨
      ((i = .dataReady ∨ i = .read) ∧ s.queue.head? = some 0x25#8)))

/-! ## DATAREADY and READ -/

/-- DATAREADY: with a byte pending it answers 1 and takes nothing; with none pending and an empty transport
it answers 0; else it takes one byte, feeds it, and answers `F.ready` as it then stands (R55). That one call
takes at most one byte is the spec's own decision D8 (log 8). -/
def Obligations.DataReadyTakesAtMostOneByte : Prop :=
  ∀ s : State, Legal s →
    (s.F.ready = true → exec .dataReady s = .next { s with out := s.out ++ [.dataReady true] }) ∧
    (s.F.ready = false → s.queue = [] →
      exec .dataReady s = .next { s with out := s.out ++ [.dataReady false] }) ∧
    (s.F.ready = false → ∀ b rest, s.queue = b :: rest →
      ∃ t, exec (.feed b) { s with queue := rest } = .next t ∧
        exec .dataReady s = .next { t with out := t.out ++ [.dataReady t.F.ready] })

/-- READ: one READ-step polls as DATAREADY does, then finishes with the pending byte and clears `F.ready`,
leaving `F.peek`, or holds (R56). That `F.peek` keeps its value is the spec's own decision D17, and that a
poll takes at most one byte its decision D8 (log 8). -/
def Obligations.ReadFinishesOrHolds : Prop :=
  ∀ s : State, Legal s →
    (s.F.ready = true → exec .read s = .next { s with
      F := { s.F with ready := false }, reading := false, out := s.out ++ [.read s.F.peek] }) ∧
    (s.F.ready = false → s.queue = [] → exec .read s = .next { s with reading := true }) ∧
    (s.F.ready = false → ∀ b rest, s.queue = b :: rest →
      ∃ t, exec (.feed b) { s with queue := rest } = .next t ∧
        (t.F.ready = true → exec .read s = .next { t with
          F := { t.F with ready := false }, reading := false, out := t.out ++ [.read t.F.peek] }) ∧
        (t.F.ready = false → exec .read s = .next { t with reading := true }))

/-- While a message is open DATAREADY answers 0 and READ does not finish (R57 (a), the spec's own
inference). -/
def Obligations.NothingPendingWhileBuffering : Prop :=
  ∀ s : State, Legal s → s.F.buffering = true →
    (∃ t o, exec .dataReady s = .next t ∧ t.F.ready = false ∧ t.out = o ++ [.dataReady false]) ∧
    (∃ t, exec .read s = .next t ∧ t.reading = true ∧ readBytes t.out = readBytes s.out)

/-- No step from a state that meets the invariant hands a sentinel to the consumer (R57 (b), the spec's own
inference). -/
def Obligations.SentinelNeverReachesTheConsumer : Prop :=
  ∀ s t : State, StepInv s → step s = .next t → Output.read 0x25#8 ∉ t.out

/-- As many READ-steps as the transport holds bytes return exactly its in-band bytes, in order, each once,
and leave the transport empty (R57 (c), (e), the spec's own inference). -/
def Obligations.ReadsDeliverInBandBytesInOrder : Prop :=
  ∀ s : State, Legal s → s.F.ready = false →
    ∃ t, execAll (List.replicate s.queue.length .read) s = .next t ∧
      readBytes t.out = readBytes s.out ++ inBandBytes s.F.buffering s.queue ∧
      t.queue = [] ∧ t.F.ready = false ∧ t.P = s.P

/-- A whole status message fed through DATAREADY is absorbed: no byte of it becomes pending, the parser is
untouched, and its first 79 bytes, up to the first 0x00, decide the flag and go out as the message event
(R46, R54, R58, R59). It rests on the spec's own decisions D8, D9, D12 and D13 (log 8). -/
def Obligations.StatusMessageIsAbsorbed : Prop :=
  ∀ (s : State) (m rest : List Byte), Legal s → s.F.ready = false → s.F.buffering = false →
    s.queue = 0x25#8 :: (m ++ 0x25#8 :: rest) → 0x25#8 ∉ m →
    ∃ t, execAll (List.replicate (m.length + 2) .dataReady) s = .next t ∧
      t.queue = rest ∧ t.F.ready = false ∧ t.F.buffering = false ∧ t.F.peek = s.F.peek ∧
      t.F.cursor.toNat = min m.length 79 ∧ t.P = s.P ∧
      t.connected = connectedBy (cString (m.take 79)) s.connected ∧
      t.out = s.out ++ List.replicate (m.length + 1) (.dataReady false) ++
        [.message (cString (m.take 79)), .dataReady false]

/-! ## The parser -/

/-- P.IDLE_OPEN moves to SEQUENCE_NUMBER and changes nothing else (R67). -/
def Obligations.FrameOpenStartsAFrame : Prop :=
  ∀ s : State, Legal s → s.P.state = 0#3 →
    exec .pIdleOpen s = .next { s with P := { s.P with state := 1#3 } }

/-- P.IDLE_IGNORE changes nothing (R68). -/
def Obligations.BytesOutsideFramesAreIgnored : Prop :=
  ∀ (s : State) (b : Byte), Legal s → s.P.state = 0#3 → b ≠ 0x5B#8 → exec (.pIdleIgnore b) s = .next s

/-- P.SEQ moves to PACKET_ID whatever the byte, and changes nothing else (R69). -/
def Obligations.SequenceDigitIsDiscarded : Prop :=
  ∀ (s : State) (b : Byte), Legal s → s.P.state = 1#3 →
    exec (.pSeq b) s = .next { s with P := { s.P with state := 2#3 } }

/-- P.ID stores any byte as the type and moves to PAYLOAD_SIZE_0 (R70). -/
def Obligations.TypeIdIsStored : Prop :=
  ∀ (s : State) (b : Byte), Legal s → s.P.state = 2#3 →
    exec (.pId b) s = .next { s with P := { s.P with typeId := b, state := 3#3 } }

/-- P.SIZE0 puts the digit in the length's high nibble, `HexNib(b) << 4` modulo 256, and moves to
PAYLOAD_SIZE_1 (R71; for bytes that are no hex digits the spec's own decision D4, log 8). -/
def Obligations.LengthHighDigit : Prop :=
  ∀ (s : State) (b : Byte), Legal s → s.P.state = 3#3 →
    exec (.pSize0 b) s = .next { s with P := { s.P with len := hexNib b <<< 4, state := 4#3 } }

/-- P.SIZE1 ORs all 8 bits of HexNib into the length and moves to PAYLOAD_0 whatever the length (R72; for
bytes that are no hex digits the spec's own decision D4, log 8). -/
def Obligations.LengthLowDigit : Prop :=
  ∀ (s : State) (b : Byte), Legal s → s.P.state = 4#3 →
    exec (.pSize1 b) s = .next { s with P := { s.P with len := s.P.len ||| hexNib b, state := 5#3 } }

/-- P.PAY0 puts the digit in the accumulator's high nibble, decrements the counter modulo 256, and goes to
IDLE at 0 and else to PAYLOAD_1, with no action (R73). The counter's 8 bits, and so its wrap at 0, are the
spec's own decision D3, and the nibble of a byte that is no hex digit rests on its decisions D4 and D5 (log
8). -/
def Obligations.PayloadHighDigit : Prop :=
  ∀ (s : State) (b : Byte), Legal s → s.P.state = 5#3 →
    exec (.pPay0 b) s = .next { s with P := { s.P with
      acc := hexNib b <<< 4, len := s.P.len - 1#8, state := if s.P.len = 1#8 then 0#3 else 6#3 } }

/-- P.PAY1 ORs the digit in, emits one action with the frame's type and the whole byte, decrements the
counter, and goes to IDLE at 0 and else to PAYLOAD_0 (R74; for bytes that are no hex digits the spec's own
decision D4, log 8). -/
def Obligations.PayloadLowDigitEmits : Prop :=
  ∀ (s : State) (b : Byte), Legal s → s.P.state = 6#3 →
    exec (.pPay1 b) s = .next { s with
      P := { s.P with acc := s.P.acc ||| hexNib b, len := s.P.len - 1#8,
                      state := if s.P.len = 1#8 then 0#3 else 5#3 }
      out := s.out ++ [.action s.P.typeId (s.P.acc ||| hexNib b)] }

/-- CONSUME runs the one row its byte decodes to in the parser's state; that row answers a next state, emits
nothing or one action, and leaves the filter, the flag and the agents alone (R66; that the action is an
output of this step is the spec's own decision D20, log 9). -/
def Obligations.ConsumeRunsTheDecodedCase : Prop :=
  ∀ (s : State) (b : Byte), Legal s →
    ∃ i t, decode (.parserByte s.P.state b) = .ok i ∧
      exec (.consume b) s = .next t ∧ exec i s = .next t ∧
      (t.out = s.out ∨ ∃ d, t.out = s.out ++ [.action s.P.typeId d]) ∧
      t.F = s.F ∧ t.connected = s.connected ∧ t.queue = s.queue ∧ t.reading = s.reading ∧
      SameSchedule s t

/-- An action comes only from a payload byte's low digit (R66, R74). -/
def Obligations.OnlyPayload1EmitsActions : Prop :=
  ∀ (i : Instr) (s t : State) (ty d : Byte), exec i s = .next t →
    Output.action ty d ∈ t.out → Output.action ty d ∉ s.out →
    s.P.state = 6#3 ∧ ty = s.P.typeId ∧
      ∃ b, (i = .pPay1 b ∨ i = .consume b) ∧ d = s.P.acc ||| hexNib b

/-- A payload of declared length L >= 1 takes exactly L bytes, hex digits or not: the parser is out of IDLE
before the last and in IDLE after it, and emits one action for each full pair, floor(L/2) in all (R75, R77,
the spec's own inferences from R73 and R74). -/
def Obligations.PayloadTakesItsLength : Prop :=
  ∀ (s : State) (ds : List Byte), Legal s → s.P.state = 5#3 → s.P.len ≠ 0#8 →
    ds.length = s.P.len.toNat →
    (∃ t, execAll (ds.map .consume) s = .next t ∧ t.P.state = 0#3 ∧
      t.out = s.out ++ payloadActions s.P.typeId ds) ∧
    (payloadActions s.P.typeId ds).length = s.P.len.toNat / 2 ∧
    (∀ k, k < ds.length → ∃ u, execAll ((ds.take k).map .consume) s = .next u ∧ u.P.state ≠ 0#3)

/-- A frame of length zero takes exactly 256 payload bytes and emits 128 actions before it returns to IDLE
(R76, the spec's own inference; the 8-bit counter is its decision D3, log 8). -/
def Obligations.ZeroLengthTakes256Digits : Prop :=
  ∀ (s : State) (ds : List Byte), Legal s → s.P.state = 5#3 → s.P.len = 0#8 → ds.length = 256 →
    (∃ t, execAll (ds.map .consume) s = .next t ∧ t.P.state = 0#3 ∧
      t.out = s.out ++ payloadActions s.P.typeId ds) ∧
    (payloadActions s.P.typeId ds).length = 128 ∧
    (∀ k, k < 256 → ∃ u, execAll ((ds.take k).map .consume) s = .next u ∧ u.P.state ≠ 0#3)

/-- A frame fed from IDLE, its length spelled by two hex digits and its payload all hex digits, emits
exactly `Action(t, 16 * HexNib(p_2j) + HexNib(p_2j+1))` for each pair, in order, and ends in IDLE (R78, the
spec's own inference). -/
def Obligations.FrameEmitsItsActions : Prop :=
  ∀ (s : State) (sq ty h l : Byte) (p : List Byte), Legal s → s.P.state = 0#3 →
    isHexDigit h = true → isHexDigit l = true → p.all isHexDigit = true →
    p.length = 16 * (hexNib h).toNat + (hexNib l).toNat → 1 ≤ p.length →
    ∃ t, execAll ((0x5B#8 :: sq :: ty :: h :: l :: p).map .consume) s = .next t ∧
      t.P.state = 0#3 ∧ t.out = s.out ++ hexPairActions ty p ∧
      (hexPairActions ty p).length = p.length / 2 ∧ t.F = s.F ∧ t.connected = s.connected

/-! ## Frames -/

/-- The filter's and the flag's instructions leave the parser alone; the parser's leave the filter, the flag
and the transport alone; none changes the script, the interleaving, PIPE or the RESET count (R27, R49 to
R56, R66 to R74). -/
def Obligations.UnitsLeaveEachOtherAlone : Prop :=
  ∀ (i : Instr) (s t : State), exec i s = .next t → i ≠ .reset →
    SameSchedule s t ∧
    (match i with
      | .consume _ | .pIdleOpen | .pIdleIgnore _ | .pSeq _ | .pId _ | .pSize0 _ | .pSize1 _ | .pPay0 _
      | .pPay1 _ => t.F = s.F ∧ t.connected = s.connected ∧ t.queue = s.queue ∧ t.reading = s.reading
      | .dataReady | .read => t.P = s.P
      | .cUpdate _ | .isConnected => t.P = s.P ∧ t.F = s.F ∧ t.queue = s.queue ∧ t.reading = s.reading
      | .reset => True
      | .feed _ | .fOpen | .fInband _ | .fClose | .fAppend _ | .fDrop _ =>
        t.P = s.P ∧ t.queue = s.queue ∧ t.reading = s.reading)

/-- Only APPEND and CLOSE store in the status buffer, alone or inside FEED, DATAREADY and READ, and only at
the cursor: every other index reads as before, and every index does where nothing is stored (R27). RESET,
which makes the whole buffer unspecified, is left out. -/
def Obligations.BufferIsStoredOnlyAtTheCursor : Prop :=
  ∀ (i : Instr) (s t : State), exec i s = .next t → i ≠ .reset →
    (∀ a, a ≠ s.F.cursor.toNat → bufByte t a = bufByte s a) ∧
    ((s.F.buffering = false ∨
      (i ≠ .fClose ∧ (∀ b, i ≠ .fAppend b) ∧ (∀ b, i ≠ .feed b) ∧ i ≠ .dataReady ∧ i ≠ .read)) →
      ∀ a, bufByte t a = bufByte s a)

/-- A row run where its state condition or its byte condition does not hold is refused by its name, and so
is FEED with a byte pending (R37, R38, R49). That it is refused is the model's choice (log 6). -/
def Obligations.RowsAreRefusedOutsideTheirCase : Prop :=
  ∀ (s : State) (b : Byte), Legal s →
    (s.F.ready = true → exec (.feed b) s = .refused (.notSelected "FEED")) ∧
    (s.F.ready = true ∨ s.F.buffering = true → exec .fOpen s = .refused (.notSelected "F.OPEN")) ∧
    (s.F.ready = true ∨ s.F.buffering = true ∨ b = 0x25#8 →
      exec (.fInband b) s = .refused (.notSelected "F.INBAND")) ∧
    (s.F.buffering = false → exec .fClose s = .refused (.notSelected "F.CLOSE")) ∧
    (s.F.buffering = false ∨ b = 0x25#8 ∨ 79 ≤ s.F.cursor.toNat →
      exec (.fAppend b) s = .refused (.notSelected "F.APPEND")) ∧
    (s.F.buffering = false ∨ b = 0x25#8 ∨ s.F.cursor.toNat < 79 →
      exec (.fDrop b) s = .refused (.notSelected "F.DROP")) ∧
    (s.P.state ≠ 0#3 → exec .pIdleOpen s = .refused (.notSelected "P.IDLE_OPEN")) ∧
    (s.P.state ≠ 0#3 ∨ b = 0x5B#8 → exec (.pIdleIgnore b) s = .refused (.notSelected "P.IDLE_IGNORE")) ∧
    (s.P.state ≠ 1#3 → exec (.pSeq b) s = .refused (.notSelected "P.SEQ")) ∧
    (s.P.state ≠ 2#3 → exec (.pId b) s = .refused (.notSelected "P.ID")) ∧
    (s.P.state ≠ 3#3 → exec (.pSize0 b) s = .refused (.notSelected "P.SIZE0")) ∧
    (s.P.state ≠ 4#3 → exec (.pSize1 b) s = .refused (.notSelected "P.SIZE1")) ∧
    (s.P.state ≠ 5#3 → exec (.pPay0 b) s = .refused (.notSelected "P.PAY0")) ∧
    (s.P.state ≠ 6#3 → exec (.pPay1 b) s = .refused (.notSelected "P.PAY1"))

/-! ## RESET -/

/-- From any state, RESET clears `F.buffering`, `F.ready` and `C.connected`, puts the parser in IDLE,
abandons a READ and a PIPE without an output, and leaves the transport's queue and the script alone (R89,
R90). The reset values other than IDLE are the spec's own decisions D7 and D11, and the abandoned READ its
decision D23 (log 8); that PIPE is abandoned with it, and the count of RESETs, are the model's choices (log
10, log 3); the registers it leaves unspecified take free values, of which nothing is said but the cursor's
range (log 3). -/
def Obligations.ResetPutsTheBlockInItsResetState : Prop :=
  ∀ s : State, ∃ t, exec .reset s = .next t ∧
    t.F.buffering = false ∧ t.F.ready = false ∧ t.connected = false ∧ t.P.state = 0#3 ∧
    t.F.cursor.toNat ≤ 79 ∧ t.reading = false ∧ t.queue = s.queue ∧ t.out = s.out ∧
    t.script = s.script ∧ t.interleave = s.interleave ∧ t.pipe = .off ∧ t.epoch = s.epoch + 1 ∧ Legal t

/-- The machine's state after reset: the values R13 states (all but IDLE the spec's own decisions D7 and
D11, log 8), and the invariant. -/
def Obligations.PowerUpState : Prop :=
  State.reset.F.buffering = false ∧ State.reset.F.ready = false ∧ State.reset.connected = false ∧
  State.reset.P.state = ParserState.idle.code ∧ State.reset.reading = false ∧ StepInv State.reset

/-- What one RESET leaves open does not matter to what the next operations answer: right after it DATAREADY
on an empty transport answers 0, IS_CONNECTED answers 0 and a frame-open byte moves the parser to
SEQUENCE_NUMBER (R89, the example; it rests on the spec's own decisions D7 and D11, log 8). -/
def Obligations.FirstAnswersAfterReset : Prop :=
  ∀ s : State, s.queue = [] → ∃ t, exec .reset s = .next t ∧
    (∃ u, exec .dataReady t = .next u ∧ u.out = t.out ++ [.dataReady false]) ∧
    (∃ u, exec .isConnected t = .next u ∧ u.out = t.out ++ [.isConnected false]) ∧
    (∃ u, exec (.consume 0x5B#8) t = .next u ∧ u.P.state = 1#3 ∧ u.out = t.out)

/-! ## Invariants -/

/-- Every instruction keeps R25's invariants (R25 is the spec's own inference); for RESET the state before
need not meet them. -/
def Obligations.EveryInstructionKeepsLegal : Prop :=
  ∀ (i : Instr) (s t : State), exec i s = .next t → Legal t

/-- A state that breaks an invariant of R25 is faulted on by every instruction but RESET (R19, R25, R66,
U11, U12; the choice of faults is the model's, log 5). -/
def Obligations.BrokenStatesFault : Prop :=
  ∀ (i : Instr) (s : State), ¬ Legal s → i ≠ .reset → ∃ f, exec i s = .fault f

/-- From every state that meets the invariant a step answers a next state, which meets it too: no run stops
in a fault or a refusal (R25, R47, R80). -/
def Obligations.EveryStepKeepsTheInvariant : Prop :=
  ∀ s : State, StepInv s → ∃ t, step s = .next t ∧ StepInv t

/-! ## Steps -/

/-- With no operation in progress, the step runs the instruction that the script's next request decodes to,
on the state with the step before's outputs gone and that request taken (R8, R36, R48). The script is the
model's own (log 1), and so is the clearing of the outputs (log 9). -/
def Obligations.StepRunsTheDecodedRequest : Prop :=
  ∀ (s : State) (e : ProgramStep) (rest : List ProgramStep) (w : Symbol) (i : Instr),
    s.reading = false → s.pipe = .off → s.script = e :: rest → e.symbol? = some w → decode w = .ok i →
    step s = exec i { s with out := [], script := rest }

/-- A transport step appends one byte to the queue and changes nothing else (R9; the script is the model's
own, log 1). -/
def Obligations.TransportStepAppendsOneByte : Prop :=
  ∀ (s : State) (b : Byte) (rest : List ProgramStep),
    s.reading = false → s.pipe = .off → s.script = .tx b :: rest →
    step s = .next { s with out := [], script := rest, queue := s.queue ++ [b] }

/-- A READ in progress goes on before any other operation of the consumer begins: the step is one more
READ-step and the script waits (R56 (d); log 17). -/
def Obligations.ReadInProgressGoesOn : Prop :=
  ∀ s : State, s.reading = true → s.pipe = .off →
    (∀ e, s.script.head? = some e → e = .dr ∨ e = .rd ∨ e = .ic ∨ e = .pipe ∨ ∃ b, e = .cb b) →
    step s = exec .read { s with out := [] }

/-- A held READ with nothing in the transport waits for ever: the step changes nothing but the outputs, and
it is no fault (R56 (c), R82). A transport step lifts the hold's cause, and RESET abandons the READ with no
output (R89 (a)). That nothing happening is a next state is the model's choice (log 11). -/
def Obligations.HeldReadWaits : Prop :=
  ∀ s : State, Legal s → s.reading = true → s.pipe = .off → s.F.ready = false → s.queue = [] →
    (s.script = [] → step s = .next { s with out := [] }) ∧
    (∀ b rest, s.script = .tx b :: rest → step s = .next { s with out := [], script := rest, queue := [b] }) ∧
    (∀ rest, s.script = .rst :: rest →
      ∃ t, step s = .next t ∧ t.reading = false ∧ t.out = [] ∧ t.script = rest ∧ t.queue = [])

/-- While a READ or a PIPE is in progress and not held, a transport step or a RESET that is next in the
script falls before the operation's next step or after it, as the interleaving says, and it goes after where
the interleaving says nothing (R9, R89 (a)). The operation's next step is the READ-step, or what PIPE does
next: DATAREADY at the loop's test, READ, or CONSUME of the byte READ returned (R79). That a list of
Booleans says which goes first is the model's choice (log 17), and so is the cut of PIPE into steps (log
10). -/
def Obligations.TransportMayInterleave : Prop :=
  ∀ (s : State) (e : ProgramStep) (rest : List ProgramStep),
    (s.reading = true ∨ s.pipe ≠ .off) → ¬ (s.reading = true ∧ s.F.ready = false ∧ s.queue = []) →
    s.script = e :: rest →
    (∀ il, s.interleave = true :: il →
      (∀ b, e = .tx b →
        step s = .next { s with out := [], script := rest, interleave := il, queue := s.queue ++ [b] }) ∧
      (e = .rst → step s = exec .reset { s with out := [], script := rest, interleave := il })) ∧
    (s.interleave.head? ≠ some true → (e = .rst ∨ ∃ b, e = .tx b) →
      let x : State := { s with out := [], interleave := s.interleave.tail }
      step s =
        match s.pipe with
        | .off => exec .read x
        | .test =>
          if s.queue = [] ∧ s.F.ready = false then .next { x with pipe := .off }
          else andThen (exec .dataReady x)
            (fun t => .next { t with pipe := if t.F.ready then .read else .test })
        | .read => andThen (exec .read x)
            (fun t => .next { t with pipe := if t.reading then .read else .consume t.F.peek })
        | .consume b => andThen (exec (.consume b) x) (fun t => .next { t with pipe := .test }))

/-- One turn of PIPE on an in-band byte, pending at the loop's test or at the head of the transport, is
three steps: a DATAREADY that answers 1, a READ that returns the byte, and a CONSUME of it, whose outputs
are the third step's. It ends at the loop's test (R79). No outside step falls between them here; the cut
into three steps is the model's choice (log 10). -/
def Obligations.PipeParsesOneInBandByte : Prop :=
  ∀ (s : State) (b : Byte) (rest : List Byte), Legal s → s.pipe = .test → s.reading = false →
    (∀ e, s.script.head? = some e → isOutside e = false) →
    ((s.F.ready = true ∧ s.F.peek = b ∧ s.queue = rest) ∨
      (s.F.ready = false ∧ s.F.buffering = false ∧ s.queue = b :: rest ∧ b ≠ 0x25#8)) →
    ∃ s1 s2 t, step s = .next s1 ∧ step s1 = .next s2 ∧ step s2 = .next t ∧
      s1 = { s with out := [.dataReady true], pipe := .read, queue := rest
                    F := { s.F with peek := b, ready := true } } ∧
      s2 = { s with out := [.read b], pipe := .consume b, queue := rest
                    F := { s.F with peek := b, ready := false } } ∧
      exec (.consume b)
        { s with out := [], queue := rest, F := { s.F with peek := b, ready := false } } = .next t

/-- PIPE ends when the transport is empty and no byte is pending, and issues no operation then (R79; that
the end of the loop is a step of its own is the model's choice, log 10). -/
def Obligations.PipeEndsWhenDrained : Prop :=
  ∀ s : State, s.pipe = .test → s.queue = [] → s.F.ready = false →
    (∀ e, s.script.head? = some e → isOutside e = false) → step s = .next { s with out := [], pipe := .off }

/-- PIPE drains any stream into the parser: from the loop's test, in at most three steps a byte and one
more, it ends with the transport empty and no byte pending, and the parser stands where CONSUME of the byte
pending at the start, if one is, and then of the in-band bytes in order leaves it (R79, R57 (e); the count
of steps is the model's choice, log 10). -/
def Obligations.PipeParsesExactlyTheInBandBytes : Prop :=
  ∀ s : State, Legal s → s.pipe = .test → s.reading = false →
    (∀ e, s.script.head? = some e → isOutside e = false) →
    ∃ n t u, n ≤ 3 * (s.queue.length + if s.F.ready then 1 else 0) + 1 ∧
      Sys2Proof.core.run n s = .next t ∧
      execAll (((if s.F.ready then [s.F.peek] else []) ++ inBandBytes s.F.buffering s.queue).map .consume) s =
        .next u ∧
      t.P = u.P ∧ t.queue = [] ∧ t.pipe = .off ∧ t.F.ready = false ∧ t.script = s.script

/-- A poll of up to `n` transport bytes leaves the registers and the queue that `n` runs of DATAREADY leave;
only the outputs differ. So a `FeedPerQuery` other than 1 would lead to no other state, only to fewer calls
(R55 (c), the spec's own inference; D8, log 8). -/
def Obligations.PollingMoreIsCallingDataReadyMore : Prop :=
  ∀ (n : Nat) (s : State), Legal s →
    ∃ t u, feedUpTo n s = .next t ∧ execAll (List.replicate n .dataReady) s = .next u ∧
      u = { t with out := u.out }

/-- The very next step after a table byte is placed runs the instruction `decodeTableWord` reads from it, on
the state `placeByte` makes with the script's new entry taken: the sentinel through DATAREADY, any other
byte through CONSUME. Placing abandons a READ and a PIPE, closes the filter or idles the parser, and changes
nothing else. Which unit reads a bare byte is the model's choice (log 12). -/
def Obligations.PlacedTableByteRunsNext : Prop :=
  ∀ (s : State) (w : Nat), Legal s →
    let b : Byte := BitVec.ofNat 8 w
    let u : State := { placeByte b s with out := [], script := s.script }
    (b = 0x25#8 →
      u = { s with out := [], reading := false, pipe := .off, queue := b :: s.queue
                   F := { s.F with buffering := false, ready := false } } ∧
      decodeTableWord 8 w = some .fOpen ∧
      ∃ t, exec .fOpen { u with queue := s.queue } = .next t ∧
        step (s.withFetchWord 8 w) = .next { t with out := t.out ++ [.dataReady t.F.ready] }) ∧
    (b ≠ 0x25#8 →
      u = { s with out := [], reading := false, pipe := .off, P := { s.P with state := 0#3 } } ∧
      ∃ i t, decodeTableWord 8 w = some i ∧ exec i u = .next t ∧ step (s.withFetchWord 8 w) = .next t)
end

