-- ==== Sys2Proof/Laws/State.lean ====
section
/-! SUPPORT. What each named update leaves in each field: one lemma a field and an update. -/

namespace Sys2Proof.Machine

@[simp] theorem FilterRegs.withBuffering_buffering (r : FilterRegs) (v : Bool) : (r.withBuffering v).buffering = v := rfl
@[simp] theorem FilterRegs.withBuffering_cursor (r : FilterRegs) (v : Bool) : (r.withBuffering v).cursor = r.cursor := rfl
@[simp] theorem FilterRegs.withBuffering_ready (r : FilterRegs) (v : Bool) : (r.withBuffering v).ready = r.ready := rfl
@[simp] theorem FilterRegs.withBuffering_peek (r : FilterRegs) (v : Bool) : (r.withBuffering v).peek = r.peek := rfl
@[simp] theorem FilterRegs.withBuffering_buf (r : FilterRegs) (v : Bool) : (r.withBuffering v).buf = r.buf := rfl

@[simp] theorem FilterRegs.withCursor_buffering (r : FilterRegs) (v : Cursor) : (r.withCursor v).buffering = r.buffering := rfl
@[simp] theorem FilterRegs.withCursor_cursor (r : FilterRegs) (v : Cursor) : (r.withCursor v).cursor = v := rfl
@[simp] theorem FilterRegs.withCursor_ready (r : FilterRegs) (v : Cursor) : (r.withCursor v).ready = r.ready := rfl
@[simp] theorem FilterRegs.withCursor_peek (r : FilterRegs) (v : Cursor) : (r.withCursor v).peek = r.peek := rfl
@[simp] theorem FilterRegs.withCursor_buf (r : FilterRegs) (v : Cursor) : (r.withCursor v).buf = r.buf := rfl

@[simp] theorem FilterRegs.withReady_buffering (r : FilterRegs) (v : Bool) : (r.withReady v).buffering = r.buffering := rfl
@[simp] theorem FilterRegs.withReady_cursor (r : FilterRegs) (v : Bool) : (r.withReady v).cursor = r.cursor := rfl
@[simp] theorem FilterRegs.withReady_ready (r : FilterRegs) (v : Bool) : (r.withReady v).ready = v := rfl
@[simp] theorem FilterRegs.withReady_peek (r : FilterRegs) (v : Bool) : (r.withReady v).peek = r.peek := rfl
@[simp] theorem FilterRegs.withReady_buf (r : FilterRegs) (v : Bool) : (r.withReady v).buf = r.buf := rfl

@[simp] theorem FilterRegs.withPeek_buffering (r : FilterRegs) (v : Byte) : (r.withPeek v).buffering = r.buffering := rfl
@[simp] theorem FilterRegs.withPeek_cursor (r : FilterRegs) (v : Byte) : (r.withPeek v).cursor = r.cursor := rfl
@[simp] theorem FilterRegs.withPeek_ready (r : FilterRegs) (v : Byte) : (r.withPeek v).ready = r.ready := rfl
@[simp] theorem FilterRegs.withPeek_peek (r : FilterRegs) (v : Byte) : (r.withPeek v).peek = v := rfl
@[simp] theorem FilterRegs.withPeek_buf (r : FilterRegs) (v : Byte) : (r.withPeek v).buf = r.buf := rfl

@[simp] theorem FilterRegs.withBuf_buffering (r : FilterRegs) (v : Memory) : (r.withBuf v).buffering = r.buffering := rfl
@[simp] theorem FilterRegs.withBuf_cursor (r : FilterRegs) (v : Memory) : (r.withBuf v).cursor = r.cursor := rfl
@[simp] theorem FilterRegs.withBuf_ready (r : FilterRegs) (v : Memory) : (r.withBuf v).ready = r.ready := rfl
@[simp] theorem FilterRegs.withBuf_peek (r : FilterRegs) (v : Memory) : (r.withBuf v).peek = r.peek := rfl
@[simp] theorem FilterRegs.withBuf_buf (r : FilterRegs) (v : Memory) : (r.withBuf v).buf = v := rfl

@[simp] theorem ParserRegs.withState_state (r : ParserRegs) (v : StateCode) : (r.withState v).state = v := rfl
@[simp] theorem ParserRegs.withState_len (r : ParserRegs) (v : StateCode) : (r.withState v).len = r.len := rfl
@[simp] theorem ParserRegs.withState_typeId (r : ParserRegs) (v : StateCode) : (r.withState v).typeId = r.typeId := rfl
@[simp] theorem ParserRegs.withState_acc (r : ParserRegs) (v : StateCode) : (r.withState v).acc = r.acc := rfl

@[simp] theorem ParserRegs.withLen_state (r : ParserRegs) (v : BitVec Config.lenWidth) : (r.withLen v).state = r.state := rfl
@[simp] theorem ParserRegs.withLen_len (r : ParserRegs) (v : BitVec Config.lenWidth) : (r.withLen v).len = v := rfl
@[simp] theorem ParserRegs.withLen_typeId (r : ParserRegs) (v : BitVec Config.lenWidth) : (r.withLen v).typeId = r.typeId := rfl
@[simp] theorem ParserRegs.withLen_acc (r : ParserRegs) (v : BitVec Config.lenWidth) : (r.withLen v).acc = r.acc := rfl

@[simp] theorem ParserRegs.withTypeId_state (r : ParserRegs) (v : Byte) : (r.withTypeId v).state = r.state := rfl
@[simp] theorem ParserRegs.withTypeId_len (r : ParserRegs) (v : Byte) : (r.withTypeId v).len = r.len := rfl
@[simp] theorem ParserRegs.withTypeId_typeId (r : ParserRegs) (v : Byte) : (r.withTypeId v).typeId = v := rfl
@[simp] theorem ParserRegs.withTypeId_acc (r : ParserRegs) (v : Byte) : (r.withTypeId v).acc = r.acc := rfl

@[simp] theorem ParserRegs.withAcc_state (r : ParserRegs) (v : Byte) : (r.withAcc v).state = r.state := rfl
@[simp] theorem ParserRegs.withAcc_len (r : ParserRegs) (v : Byte) : (r.withAcc v).len = r.len := rfl
@[simp] theorem ParserRegs.withAcc_typeId (r : ParserRegs) (v : Byte) : (r.withAcc v).typeId = r.typeId := rfl
@[simp] theorem ParserRegs.withAcc_acc (r : ParserRegs) (v : Byte) : (r.withAcc v).acc = v := rfl


@[simp] theorem State.withF_F (s : State) (v : FilterRegs) : (s.withF v).F = v := rfl
@[simp] theorem State.withF_connected (s : State) (v : FilterRegs) : (s.withF v).connected = s.connected := rfl
@[simp] theorem State.withF_P (s : State) (v : FilterRegs) : (s.withF v).P = s.P := rfl
@[simp] theorem State.withF_queue (s : State) (v : FilterRegs) : (s.withF v).queue = s.queue := rfl
@[simp] theorem State.withF_reading (s : State) (v : FilterRegs) : (s.withF v).reading = s.reading := rfl
@[simp] theorem State.withF_pipe (s : State) (v : FilterRegs) : (s.withF v).pipe = s.pipe := rfl
@[simp] theorem State.withF_script (s : State) (v : FilterRegs) : (s.withF v).script = s.script := rfl
@[simp] theorem State.withF_interleave (s : State) (v : FilterRegs) : (s.withF v).interleave = s.interleave := rfl
@[simp] theorem State.withF_out (s : State) (v : FilterRegs) : (s.withF v).out = s.out := rfl
@[simp] theorem State.withF_epoch (s : State) (v : FilterRegs) : (s.withF v).epoch = s.epoch := rfl

@[simp] theorem State.withConnected_F (s : State) (v : Bool) : (s.withConnected v).F = s.F := rfl
@[simp] theorem State.withConnected_connected (s : State) (v : Bool) : (s.withConnected v).connected = v := rfl
@[simp] theorem State.withConnected_P (s : State) (v : Bool) : (s.withConnected v).P = s.P := rfl
@[simp] theorem State.withConnected_queue (s : State) (v : Bool) : (s.withConnected v).queue = s.queue := rfl
@[simp] theorem State.withConnected_reading (s : State) (v : Bool) : (s.withConnected v).reading = s.reading := rfl
@[simp] theorem State.withConnected_pipe (s : State) (v : Bool) : (s.withConnected v).pipe = s.pipe := rfl
@[simp] theorem State.withConnected_script (s : State) (v : Bool) : (s.withConnected v).script = s.script := rfl
@[simp] theorem State.withConnected_interleave (s : State) (v : Bool) : (s.withConnected v).interleave = s.interleave := rfl
@[simp] theorem State.withConnected_out (s : State) (v : Bool) : (s.withConnected v).out = s.out := rfl
@[simp] theorem State.withConnected_epoch (s : State) (v : Bool) : (s.withConnected v).epoch = s.epoch := rfl

@[simp] theorem State.withP_F (s : State) (v : ParserRegs) : (s.withP v).F = s.F := rfl
@[simp] theorem State.withP_connected (s : State) (v : ParserRegs) : (s.withP v).connected = s.connected := rfl
@[simp] theorem State.withP_P (s : State) (v : ParserRegs) : (s.withP v).P = v := rfl
@[simp] theorem State.withP_queue (s : State) (v : ParserRegs) : (s.withP v).queue = s.queue := rfl
@[simp] theorem State.withP_reading (s : State) (v : ParserRegs) : (s.withP v).reading = s.reading := rfl
@[simp] theorem State.withP_pipe (s : State) (v : ParserRegs) : (s.withP v).pipe = s.pipe := rfl
@[simp] theorem State.withP_script (s : State) (v : ParserRegs) : (s.withP v).script = s.script := rfl
@[simp] theorem State.withP_interleave (s : State) (v : ParserRegs) : (s.withP v).interleave = s.interleave := rfl
@[simp] theorem State.withP_out (s : State) (v : ParserRegs) : (s.withP v).out = s.out := rfl
@[simp] theorem State.withP_epoch (s : State) (v : ParserRegs) : (s.withP v).epoch = s.epoch := rfl

@[simp] theorem State.withQueue_F (s : State) (v : List Byte) : (s.withQueue v).F = s.F := rfl
@[simp] theorem State.withQueue_connected (s : State) (v : List Byte) : (s.withQueue v).connected = s.connected := rfl
@[simp] theorem State.withQueue_P (s : State) (v : List Byte) : (s.withQueue v).P = s.P := rfl
@[simp] theorem State.withQueue_queue (s : State) (v : List Byte) : (s.withQueue v).queue = v := rfl
@[simp] theorem State.withQueue_reading (s : State) (v : List Byte) : (s.withQueue v).reading = s.reading := rfl
@[simp] theorem State.withQueue_pipe (s : State) (v : List Byte) : (s.withQueue v).pipe = s.pipe := rfl
@[simp] theorem State.withQueue_script (s : State) (v : List Byte) : (s.withQueue v).script = s.script := rfl
@[simp] theorem State.withQueue_interleave (s : State) (v : List Byte) : (s.withQueue v).interleave = s.interleave := rfl
@[simp] theorem State.withQueue_out (s : State) (v : List Byte) : (s.withQueue v).out = s.out := rfl
@[simp] theorem State.withQueue_epoch (s : State) (v : List Byte) : (s.withQueue v).epoch = s.epoch := rfl

@[simp] theorem State.withReading_F (s : State) (v : Bool) : (s.withReading v).F = s.F := rfl
@[simp] theorem State.withReading_connected (s : State) (v : Bool) : (s.withReading v).connected = s.connected := rfl
@[simp] theorem State.withReading_P (s : State) (v : Bool) : (s.withReading v).P = s.P := rfl
@[simp] theorem State.withReading_queue (s : State) (v : Bool) : (s.withReading v).queue = s.queue := rfl
@[simp] theorem State.withReading_reading (s : State) (v : Bool) : (s.withReading v).reading = v := rfl
@[simp] theorem State.withReading_pipe (s : State) (v : Bool) : (s.withReading v).pipe = s.pipe := rfl
@[simp] theorem State.withReading_script (s : State) (v : Bool) : (s.withReading v).script = s.script := rfl
@[simp] theorem State.withReading_interleave (s : State) (v : Bool) : (s.withReading v).interleave = s.interleave := rfl
@[simp] theorem State.withReading_out (s : State) (v : Bool) : (s.withReading v).out = s.out := rfl
@[simp] theorem State.withReading_epoch (s : State) (v : Bool) : (s.withReading v).epoch = s.epoch := rfl

@[simp] theorem State.withPipe_F (s : State) (v : PipePhase) : (s.withPipe v).F = s.F := rfl
@[simp] theorem State.withPipe_connected (s : State) (v : PipePhase) : (s.withPipe v).connected = s.connected := rfl
@[simp] theorem State.withPipe_P (s : State) (v : PipePhase) : (s.withPipe v).P = s.P := rfl
@[simp] theorem State.withPipe_queue (s : State) (v : PipePhase) : (s.withPipe v).queue = s.queue := rfl
@[simp] theorem State.withPipe_reading (s : State) (v : PipePhase) : (s.withPipe v).reading = s.reading := rfl
@[simp] theorem State.withPipe_pipe (s : State) (v : PipePhase) : (s.withPipe v).pipe = v := rfl
@[simp] theorem State.withPipe_script (s : State) (v : PipePhase) : (s.withPipe v).script = s.script := rfl
@[simp] theorem State.withPipe_interleave (s : State) (v : PipePhase) : (s.withPipe v).interleave = s.interleave := rfl
@[simp] theorem State.withPipe_out (s : State) (v : PipePhase) : (s.withPipe v).out = s.out := rfl
@[simp] theorem State.withPipe_epoch (s : State) (v : PipePhase) : (s.withPipe v).epoch = s.epoch := rfl

@[simp] theorem State.withScript_F (s : State) (v : List ProgramStep) : (s.withScript v).F = s.F := rfl
@[simp] theorem State.withScript_connected (s : State) (v : List ProgramStep) : (s.withScript v).connected = s.connected := rfl
@[simp] theorem State.withScript_P (s : State) (v : List ProgramStep) : (s.withScript v).P = s.P := rfl
@[simp] theorem State.withScript_queue (s : State) (v : List ProgramStep) : (s.withScript v).queue = s.queue := rfl
@[simp] theorem State.withScript_reading (s : State) (v : List ProgramStep) : (s.withScript v).reading = s.reading := rfl
@[simp] theorem State.withScript_pipe (s : State) (v : List ProgramStep) : (s.withScript v).pipe = s.pipe := rfl
@[simp] theorem State.withScript_script (s : State) (v : List ProgramStep) : (s.withScript v).script = v := rfl
@[simp] theorem State.withScript_interleave (s : State) (v : List ProgramStep) : (s.withScript v).interleave = s.interleave := rfl
@[simp] theorem State.withScript_out (s : State) (v : List ProgramStep) : (s.withScript v).out = s.out := rfl
@[simp] theorem State.withScript_epoch (s : State) (v : List ProgramStep) : (s.withScript v).epoch = s.epoch := rfl

@[simp] theorem State.withInterleave_F (s : State) (v : List Bool) : (s.withInterleave v).F = s.F := rfl
@[simp] theorem State.withInterleave_connected (s : State) (v : List Bool) : (s.withInterleave v).connected = s.connected := rfl
@[simp] theorem State.withInterleave_P (s : State) (v : List Bool) : (s.withInterleave v).P = s.P := rfl
@[simp] theorem State.withInterleave_queue (s : State) (v : List Bool) : (s.withInterleave v).queue = s.queue := rfl
@[simp] theorem State.withInterleave_reading (s : State) (v : List Bool) : (s.withInterleave v).reading = s.reading := rfl
@[simp] theorem State.withInterleave_pipe (s : State) (v : List Bool) : (s.withInterleave v).pipe = s.pipe := rfl
@[simp] theorem State.withInterleave_script (s : State) (v : List Bool) : (s.withInterleave v).script = s.script := rfl
@[simp] theorem State.withInterleave_interleave (s : State) (v : List Bool) : (s.withInterleave v).interleave = v := rfl
@[simp] theorem State.withInterleave_out (s : State) (v : List Bool) : (s.withInterleave v).out = s.out := rfl
@[simp] theorem State.withInterleave_epoch (s : State) (v : List Bool) : (s.withInterleave v).epoch = s.epoch := rfl

@[simp] theorem State.emit_F (s : State) (o : Output) : (s.emit o).F = s.F := rfl
@[simp] theorem State.emit_connected (s : State) (o : Output) : (s.emit o).connected = s.connected := rfl
@[simp] theorem State.emit_P (s : State) (o : Output) : (s.emit o).P = s.P := rfl
@[simp] theorem State.emit_queue (s : State) (o : Output) : (s.emit o).queue = s.queue := rfl
@[simp] theorem State.emit_reading (s : State) (o : Output) : (s.emit o).reading = s.reading := rfl
@[simp] theorem State.emit_pipe (s : State) (o : Output) : (s.emit o).pipe = s.pipe := rfl
@[simp] theorem State.emit_script (s : State) (o : Output) : (s.emit o).script = s.script := rfl
@[simp] theorem State.emit_interleave (s : State) (o : Output) : (s.emit o).interleave = s.interleave := rfl
@[simp] theorem State.emit_out (s : State) (o : Output) : (s.emit o).out = s.out ++ [o] := rfl
@[simp] theorem State.emit_epoch (s : State) (o : Output) : (s.emit o).epoch = s.epoch := rfl

@[simp] theorem State.clearOut_F (s : State) : s.clearOut.F = s.F := rfl
@[simp] theorem State.clearOut_connected (s : State) : s.clearOut.connected = s.connected := rfl
@[simp] theorem State.clearOut_P (s : State) : s.clearOut.P = s.P := rfl
@[simp] theorem State.clearOut_queue (s : State) : s.clearOut.queue = s.queue := rfl
@[simp] theorem State.clearOut_reading (s : State) : s.clearOut.reading = s.reading := rfl
@[simp] theorem State.clearOut_pipe (s : State) : s.clearOut.pipe = s.pipe := rfl
@[simp] theorem State.clearOut_script (s : State) : s.clearOut.script = s.script := rfl
@[simp] theorem State.clearOut_interleave (s : State) : s.clearOut.interleave = s.interleave := rfl
@[simp] theorem State.clearOut_out (s : State) : s.clearOut.out = [] := rfl
@[simp] theorem State.clearOut_epoch (s : State) : s.clearOut.epoch = s.epoch := rfl

@[simp] theorem receive_F (b : Byte) (s : State) : (receive b s).F = s.F := rfl
@[simp] theorem receive_connected (b : Byte) (s : State) : (receive b s).connected = s.connected := rfl
@[simp] theorem receive_P (b : Byte) (s : State) : (receive b s).P = s.P := rfl
@[simp] theorem receive_queue (b : Byte) (s : State) : (receive b s).queue = s.queue ++ [b] := rfl
@[simp] theorem receive_reading (b : Byte) (s : State) : (receive b s).reading = s.reading := rfl
@[simp] theorem receive_pipe (b : Byte) (s : State) : (receive b s).pipe = s.pipe := rfl
@[simp] theorem receive_script (b : Byte) (s : State) : (receive b s).script = s.script := rfl
@[simp] theorem receive_interleave (b : Byte) (s : State) : (receive b s).interleave = s.interleave := rfl
@[simp] theorem receive_out (b : Byte) (s : State) : (receive b s).out = s.out := rfl
@[simp] theorem receive_epoch (b : Byte) (s : State) : (receive b s).epoch = s.epoch := rfl

@[simp] theorem update_F (m : List Byte) (s : State) : (update m s).F = s.F := rfl
@[simp] theorem update_connected (m : List Byte) (s : State) : (update m s).connected = connectedBy (cString m) s.connected := rfl
@[simp] theorem update_P (m : List Byte) (s : State) : (update m s).P = s.P := rfl
@[simp] theorem update_queue (m : List Byte) (s : State) : (update m s).queue = s.queue := rfl
@[simp] theorem update_reading (m : List Byte) (s : State) : (update m s).reading = s.reading := rfl
@[simp] theorem update_pipe (m : List Byte) (s : State) : (update m s).pipe = s.pipe := rfl
@[simp] theorem update_script (m : List Byte) (s : State) : (update m s).script = s.script := rfl
@[simp] theorem update_interleave (m : List Byte) (s : State) : (update m s).interleave = s.interleave := rfl
@[simp] theorem update_out (m : List Byte) (s : State) : (update m s).out = s.out ++ [.message (cString m)] := rfl
@[simp] theorem update_epoch (m : List Byte) (s : State) : (update m s).epoch = s.epoch := rfl

@[simp] theorem resetRegisters_queue (n : Nat) (s : State) : (resetRegisters n s).queue = s.queue := rfl
@[simp] theorem resetRegisters_reading (n : Nat) (s : State) : (resetRegisters n s).reading = s.reading := rfl
@[simp] theorem resetRegisters_pipe (n : Nat) (s : State) : (resetRegisters n s).pipe = s.pipe := rfl
@[simp] theorem resetRegisters_script (n : Nat) (s : State) : (resetRegisters n s).script = s.script := rfl
@[simp] theorem resetRegisters_interleave (n : Nat) (s : State) : (resetRegisters n s).interleave = s.interleave := rfl
@[simp] theorem resetRegisters_out (n : Nat) (s : State) : (resetRegisters n s).out = s.out := rfl
@[simp] theorem resetRegisters_epoch (n : Nat) (s : State) : (resetRegisters n s).epoch = n := rfl
@[simp] theorem resetRegisters_connected (n : Nat) (s : State) : (resetRegisters n s).connected = false := rfl
@[simp] theorem resetRegisters_buffering (n : Nat) (s : State) : (resetRegisters n s).F.buffering = false := rfl
@[simp] theorem resetRegisters_ready (n : Nat) (s : State) : (resetRegisters n s).F.ready = false := rfl
@[simp] theorem resetRegisters_buf (n : Nat) (s : State) : (resetRegisters n s).F.buf = [] := rfl
@[simp] theorem resetRegisters_state (n : Nat) (s : State) : (resetRegisters n s).P.state = ParserState.idle.code := rfl

@[simp] theorem abandonConsumer_F (s : State) : (abandonConsumer s).F = s.F := rfl
@[simp] theorem abandonConsumer_connected (s : State) : (abandonConsumer s).connected = s.connected := rfl
@[simp] theorem abandonConsumer_P (s : State) : (abandonConsumer s).P = s.P := rfl
@[simp] theorem abandonConsumer_queue (s : State) : (abandonConsumer s).queue = s.queue := rfl
@[simp] theorem abandonConsumer_reading (s : State) : (abandonConsumer s).reading = false := rfl
@[simp] theorem abandonConsumer_pipe (s : State) : (abandonConsumer s).pipe = .off := rfl
@[simp] theorem abandonConsumer_script (s : State) : (abandonConsumer s).script = s.script := rfl
@[simp] theorem abandonConsumer_interleave (s : State) : (abandonConsumer s).interleave = s.interleave := rfl
@[simp] theorem abandonConsumer_out (s : State) : (abandonConsumer s).out = s.out := rfl
@[simp] theorem abandonConsumer_epoch (s : State) : (abandonConsumer s).epoch = s.epoch := rfl

end Sys2Proof.Machine
end

