-- ==== Sys2Proof/Laws/Checks.lean ====
section
/-! SUPPORT. What the checks and the sequencing of outcomes do, said once. -/

namespace Sys2Proof.Machine

@[simp] theorem andThen_of_next (s : State) (k : State → Result) : andThen (.next s) k = k s := rfl
@[simp] theorem andThen_of_fault (f : Fault) (k : State → Result) : andThen (.fault f) k = .fault f := rfl
@[simp] theorem andThen_of_refused (e : Refusal) (k : State → Result) :
    andThen (.refused e) k = .refused e := rfl

theorem andThen_eq_next {r : Result} {k : State → Result} {t : State} :
    andThen r k = .next t ↔ ∃ u, r = .next u ∧ k u = .next t := by
  cases r <;> simp [andThen]

theorem ofCode_isNone_iff (c : StateCode) : (ParserState.ofCode c).isNone = true ↔ 6 < c.toNat := by
  revert c; decide

theorem ofCode_code (p : ParserState) : ParserState.ofCode p.code = some p := by
  cases p <;> rfl

theorem ofCode_eq_some {c : StateCode} {p : ParserState} :
    ParserState.ofCode c = some p ↔ c = p.code := by
  revert c; cases p <;> decide

/-- The check of R25 passes exactly on the legal states. -/
theorem brokenInvariant_eq_none_iff (s : State) : brokenInvariant s = none ↔ Legal s := by
  have h3 := ofCode_isNone_iff s.P.state
  constructor
  · intro h
    unfold brokenInvariant at h
    split at h
    · cases h
    split at h
    · cases h
    split at h
    · cases h
    split at h
    · cases h
    rename_i h1 h2 hc h4
    refine ⟨?_, ?_, ?_, ?_⟩
    · intro hr; simpa [hr] using h1
    · intro hb; simpa [hb] using h2
    · rw [h3] at hc; omega
    · intro hs; simpa [hs] using h4
  · rintro ⟨i1, i2, i3, i4⟩
    have h1 : (s.F.ready && s.F.buffering) = false := by
      cases hr : s.F.ready <;> simp_all
    have h2 : (s.F.buffering && decide (Config.statusCap < s.F.cursor.toNat)) = false := by
      cases hb : s.F.buffering
      · rfl
      · simpa using i2 hb
    have hc : (ParserState.ofCode s.P.state).isNone = false := by
      cases hn : (ParserState.ofCode s.P.state).isNone
      · rfl
      · have := h3.1 hn; omega
    have h4 : (s.P.state == ParserState.payload1.code && s.P.len == 0) = false := by
      by_cases hs : s.P.state = ParserState.payload1.code
      · simpa [hs] using i4 hs
      · simp [hs]
    simp only [brokenInvariant, h1, h2, hc, h4, Bool.false_eq_true, if_false]

theorem checked_of_legal {s : State} (h : Legal s) (k : Result) : checked s k = k := by
  simp [checked, (brokenInvariant_eq_none_iff s).2 h]

theorem checked_of_not_legal {s : State} (h : ¬ Legal s) (k : Result) : ∃ f, checked s k = .fault f := by
  cases hb : brokenInvariant s with
  | none => exact absurd ((brokenInvariant_eq_none_iff s).1 hb) h
  | some f => exact ⟨f, by simp [checked, hb]⟩

/-- If a checked operation answers a next state, the state was legal and the operation answers it. -/
theorem checked_eq_next {s t : State} {k : Result} (h : checked s k = .next t) : Legal s ∧ k = .next t := by
  by_cases hl : Legal s
  · exact ⟨hl, by rwa [checked_of_legal hl] at h⟩
  · obtain ⟨f, hf⟩ := checked_of_not_legal hl k
    rw [hf] at h; cases h

theorem whenSelected_of_legal {s : State} (h : Legal s) (m : String) (c : Bool) (k : Result) :
    whenSelected m s c k = if c then k else .refused (.notSelected m) :=
  checked_of_legal h _

/-- If a row answers a next state, the state was legal, the row was the selected one, and its effect answers
it. -/
theorem whenSelected_eq_next {m : String} {s t : State} {c : Bool} {k : Result}
    (h : whenSelected m s c k = .next t) : Legal s ∧ c = true ∧ k = .next t := by
  obtain ⟨hl, hk⟩ := checked_eq_next h
  cases c
  · cases hk
  · exact ⟨hl, rfl, hk⟩

/-- The checks read the filter's and the parser's registers only. -/
theorem Legal.congr {s t : State} (h : Legal s) (hF : t.F = s.F) (hP : t.P = s.P) : Legal t := by
  obtain ⟨a, b, c, d⟩ := h
  exact ⟨by rwa [hF], by rwa [hF], by rwa [hP], by rwa [hP]⟩

end Sys2Proof.Machine
end

