-- ==== Sys2Proof/Laws/Memory.lean ====
section
/-! SUPPORT. The status buffer: read after write, the canonical form, and what the accesses do. -/

namespace Sys2Proof.Machine

/-- Read after write: the written index reads as the value written, every other as before. -/
theorem Memory.lookup_insert (m : Memory) (i j : Nat) (v : Byte) :
    Memory.lookup (Memory.insert m i v) j = if j = i then some v else Memory.lookup m j := by
  induction m with
  | nil => simp [Memory.insert, Memory.lookup, eq_comm]
  | cons c rest ih =>
    unfold Memory.insert
    split
    · by_cases h : j = i
      · simp [Memory.lookup, h]
      · have : i ≠ j := fun e => h e.symm
        simp [Memory.lookup, h, this]
    split
    · rename_i hi
      by_cases h : j = i
      · simp [Memory.lookup, h]
      · have h' : i ≠ j := fun e => h e.symm
        have h'' : c.1 ≠ j := hi ▸ h'
        simp [Memory.lookup, h, h', h'']
    · rename_i hne
      by_cases hc : c.1 = j
      · have : j ≠ i := fun e => hne (e ▸ hc.symm)
        simp [Memory.lookup, hc, this]
      · simp [Memory.lookup, hc, ih]

theorem Memory.risingFrom_insert {m : Memory} {lo i : Nat} (v : Byte) (h : Memory.risingFrom lo m = true)
    (hlo : lo ≤ i) (hi : i ≤ Config.statusCap) : Memory.risingFrom lo (Memory.insert m i v) = true := by
  induction m generalizing lo with
  | nil => simp [Memory.insert, Memory.risingFrom, hlo, hi]
  | cons c rest ih =>
    simp only [Memory.risingFrom, Bool.and_eq_true, decide_eq_true_eq] at h
    obtain ⟨⟨h1, h2⟩, h3⟩ := h
    unfold Memory.insert
    split
    · rename_i hlt
      simp [Memory.risingFrom, hlo, hi, h2, h3, hlt]
    split
    · rename_i heq
      subst heq
      simp [Memory.risingFrom, hlo, hi, h3]
    · simp [Memory.risingFrom, h1, h2, ih h3 (by omega)]

/-- Every write within the buffer keeps the canonical form. -/
theorem Memory.wf_insert {m : Memory} {i : Nat} (v : Byte) (h : Memory.wf m = true)
    (hi : i ≤ Config.statusCap) : Memory.wf (Memory.insert m i v) = true :=
  Memory.risingFrom_insert v h (Nat.zero_le _) hi

theorem memRead_ok {s : State} {i : Nat} (h : i ≤ Config.statusCap) : memRead s i = .ok (bufByte s i) :=
  if_pos h

theorem memWrite_ok {s : State} {i : Nat} (v : Byte) (h : i ≤ Config.statusCap) :
    memWrite s i v = .next (s.withF (s.F.withBuf (Memory.insert s.F.buf i v))) :=
  if_pos h

/-- A write that answers a next state was within the buffer and changed that one index. -/
theorem memWrite_eq_next {s t : State} {i : Nat} {v : Byte} (h : memWrite s i v = .next t) :
    i ≤ Config.statusCap ∧ t = s.withF (s.F.withBuf (Memory.insert s.F.buf i v)) := by
  unfold memWrite at h
  split at h
  · cases h; exact ⟨‹_›, rfl⟩
  · cases h

/-- The memory operation's own form of the law: a write keeps the buffer in canonical form. -/
theorem memWrite_keeps_wf {s t : State} {i : Nat} {v : Byte} (h : memWrite s i v = .next t)
    (hw : Memory.wf s.F.buf = true) : Memory.wf t.F.buf = true := by
  obtain ⟨hi, rfl⟩ := memWrite_eq_next h
  exact Memory.wf_insert v hw hi

/-- Reading the first `n` bytes of the buffer gives what each index reads as, in order. -/
theorem readMessage_ok {s : State} {n : Nat} (h : n ≤ Config.statusCap + 1) :
    readMessage s n = .ok ((List.range n).map (bufByte s)) := by
  induction n with
  | zero => rfl
  | succ k ih =>
    simp [readMessage, ih (by omega), memRead_ok (show k ≤ Config.statusCap by omega), List.range_succ]

theorem reset_memory_wf : Memory.wf State.reset.F.buf = true := rfl

end Sys2Proof.Machine
end

