-- ==== Sys2Proof/Laws/Filter.lean ====
section
/-! SUPPORT. What the filter's shared operations can do, said once. -/

namespace Sys2Proof.Machine

@[simp] theorem andThen_next (r : Result) : andThen r (fun t => .next t) = r := by
  cases r <;> rfl

/-- With a byte pending, or nothing in the transport, polling the filter does nothing. -/
theorem pollFilter_idle {s : State} (hl : Legal s) (h : s.F.ready = true ∨ s.queue = []) :
    pollFilter s = .next s := by
  rw [pollFilter, checked_of_legal hl]
  rcases h with h | h
  · simp [feedUpTo, h]
  · cases hr : s.F.ready <;> simp [feedUpTo, h, hr]

/-- With no byte pending and a byte in the transport, polling the filter takes that byte and feeds it. -/
theorem pollFilter_feed {s : State} {b : Byte} {rest : List Byte} (hl : Legal s) (hr : s.F.ready = false)
    (hq : s.queue = b :: rest) : pollFilter s = execFeed b (s.withQueue rest) := by
  have hz : feedUpTo 0 = fun t => .next t := by funext t; rfl
  rw [pollFilter, checked_of_legal hl]
  simp [feedUpTo, hr, hq]

/-- If polling the filter answers a next state, the state was legal, and either nothing happened or one
transport byte was fed. -/
theorem pollFilter_eq_next {s t : State} (h : pollFilter s = .next t) :
    Legal s ∧ ((s.F.ready = true ∨ s.queue = []) ∧ t = s ∨
      s.F.ready = false ∧ ∃ b rest, s.queue = b :: rest ∧ execFeed b (s.withQueue rest) = .next t) := by
  obtain ⟨hl, -⟩ := checked_eq_next h
  refine ⟨hl, ?_⟩
  cases hr : s.F.ready
  · cases hq : s.queue with
    | nil =>
      rw [pollFilter_idle hl (.inr hq)] at h
      cases h; exact .inl ⟨.inr rfl, rfl⟩
    | cons b rest =>
      rw [pollFilter_feed hl hr hq] at h
      exact .inr ⟨rfl, b, rest, rfl, h⟩
  · rw [pollFilter_idle hl (.inl hr)] at h
    cases h; exact .inl ⟨.inl rfl, rfl⟩

/-- Closing a message of at most `StatusCap` bytes ends buffering and runs UPDATE on the bytes stored. -/
theorem closeMessage_ok {s : State} {n : Nat} (h : n ≤ Config.statusCap) :
    closeMessage n s =
      .next (update ((List.range n).map (bufByte s)) (s.withF (s.F.withBuffering false))) := by
  simp [closeMessage, readMessage_ok (Nat.le_succ_of_le h)]

/-- A READ-step with a byte pending finishes. -/
theorem finishOrHold_ready {s : State} (h : s.F.ready = true) :
    finishOrHold s =
      ((s.withF (s.F.withReady false)).withReading false).emit (.read s.F.peek) := by
  simp [finishOrHold, h]

/-- A READ-step with no byte pending holds. -/
theorem finishOrHold_hold {s : State} (h : s.F.ready = false) : finishOrHold s = s.withReading true := by
  simp [finishOrHold, h]

/-- In a legal state with no byte pending FEED is the row that its byte, `F.buffering` and `F.cursor` select
(R49). -/
theorem execFeed_of_legal {s : State} (h : Legal s) (hr : s.F.ready = false) (b : Byte) :
    execFeed b s =
      (if !s.F.buffering then
        if b = Config.sent then execFOpen s else execFInband b s
      else
        if b = Config.sent then execFClose s
        else if s.F.cursor.toNat < Config.statusCap then execFAppend b s
        else execFDrop b s) := by
  rw [execFeed, whenSelected_of_legal h]
  simp [hr]

/-- Polling for `m + n` bytes is polling for `m` and then for `n`. -/
theorem feedUpTo_add (m n : Nat) (s : State) :
    feedUpTo (m + n) s = andThen (feedUpTo m s) (feedUpTo n) := by
  induction m generalizing s with
  | zero => simp [feedUpTo]
  | succ m ih =>
    have stay : s.F.ready = true ∨ s.queue = [] → ∀ k, feedUpTo k s = .next s := by
      intro h k
      cases k with
      | zero => rfl
      | succ k => rcases h with h | h <;> simp [feedUpTo, h]
    cases hr : s.F.ready with
    | true => simp [stay (.inl hr)]
    | false =>
      cases hq : s.queue with
      | nil => simp [stay (.inr hq)]
      | cons b rest =>
        rw [Nat.succ_add_eq_add_succ, Nat.add_succ]
        simp only [feedUpTo, hr, hq, Bool.false_eq_true, if_false]
        cases execFeed b (s.withQueue rest) with
        | next u => simp [ih]
        | fault f => rfl
        | refused e => rfl

end Sys2Proof.Machine
end

