-- ==== Sys2Proof/Laws/Operands.lean ====
section
/-! SUPPORT. The operand forms in the words their rules use. -/

namespace Sys2Proof.Machine

/-- The high digit is the HexNib value shifted in 8 bits (R41). -/
theorem highDigit_eq (b : Byte) : highDigit b = hexNib b <<< 4 := by
  apply BitVec.eq_of_toNat_eq
  simp [highDigit, trunc8]

/-- At 8 bits the counter holds a byte as it is (R20). -/
@[simp] theorem lenOf_eq (b : Byte) : lenOf b = b := by
  simp [lenOf, Config.lenWidth]

/-- The low length digit is ORed in whole (R72). -/
theorem lenWithLowDigit_eq (l : BitVec Config.lenWidth) (b : Byte) : lenWithLowDigit l b = l ||| hexNib b := by
  rw [lenWithLowDigit, lenOf_eq]

/-- The counter and the accumulator take a low digit alike (R41, R42). -/
theorem lenWithLowDigit_eq_withLowDigit (a b : Byte) : lenWithLowDigit a b = withLowDigit a b := by
  rw [lenWithLowDigit_eq, withLowDigit]

/-- A counter that is not 0 goes down by one (R20). -/
theorem lenLess_toNat {l : BitVec Config.lenWidth} (h : l ≠ 0) : (lenLess l).toNat + 1 = l.toNat := by
  have h0 : l.toNat ≠ 0 := fun e => h (BitVec.eq_of_toNat_eq e)
  have h1 : l.toNat < 256 := l.isLt
  simp only [lenLess, BitVec.toNat_sub, Config.lenWidth]
  simp
  omega

/-- The counter at 0 goes to 255 (R20, R76). -/
theorem lenLess_zero : lenLess 0 = 255#8 := by decide

/-- A cursor inside the buffer moves on by one without wrapping (R52). -/
theorem cursor_succ_toNat {c : Cursor} (h : c.toNat < Config.statusCap) : (c + 1).toNat = c.toNat + 1 := by
  simp [Config.statusCap] at *
  omega

end Sys2Proof.Machine
end

