-- ==== Sys2Proof/Laws/Parser.lean ====
section
/-! SUPPORT. What CONSUME dispatches to, said once. -/

namespace Sys2Proof.Machine

/-- In a legal state CONSUME is the row of its state, and in IDLE of its byte (R66). -/
theorem execConsume_of_state {s : State} (h : Legal s) (p : ParserState) (hp : s.P.state = p.code) (b : Byte) :
    execConsume b s =
      (match (generalizing := false) p with
        | .idle => if b = Config.frameOpen then execPIdleOpen s else execPIdleIgnore b s
        | .sequenceNumber => execPSeq b s
        | .packetId => execPId b s
        | .payloadSize0 => execPSize0 b s
        | .payloadSize1 => execPSize1 b s
        | .payload0 => execPPay0 b s
        | .payload1 => execPPay1 b s) := by
  have e : ParserState.ofCode s.P.state = some p := ofCode_eq_some.2 hp
  rw [execConsume, checked_of_legal h, e]
  clear e hp
  cases p <;> rfl

/-- A legal state is one of the seven (R19, R25). -/
theorem exists_parserState {s : State} (h : Legal s) : ∃ p : ParserState, s.P.state = p.code := by
  cases hp : ParserState.ofCode s.P.state with
  | some p => exact ⟨p, ofCode_eq_some.1 hp⟩
  | none =>
    have := (ofCode_isNone_iff s.P.state).1 (by rw [hp]; rfl)
    have := h.stateInRange
    omega

end Sys2Proof.Machine
end

