-- ==== Sys2Proof/Laws/PerInstr.lean ====
section
/-! SUPPORT. The family RoundTrip: decoding what encode writes gives the instruction back. -/

/-- A mask of all ones keeps the byte. -/
theorem Sys2Proof.Laws.and_full_mask (b : Sys2Proof.Byte) : b &&& 0xFF#8 = b := by
  have h : (0xFF#8 : Sys2Proof.Byte) = BitVec.allOnes 8 := rfl
  rw [h, BitVec.and_allOnes]

namespace Sys2Proof.Laws.RoundTrip

/-- A well-formed instruction is what its symbol decodes to (R36 to R38). -/
def Statement (i : Instr) : Prop := i.wellFormed = true → decode (encode i) = .ok i

theorem reset : Statement .reset := fun _ => rfl

theorem dataReady : Statement .dataReady := fun _ => rfl

theorem read : Statement .read := fun _ => rfl

theorem isConnected : Statement .isConnected := fun _ => rfl

theorem feed (b : Byte) : Statement (.feed b) := fun _ => rfl

theorem fOpen : Statement .fOpen := fun _ => rfl

theorem fInband (b : Byte) : Statement (.fInband b) := by
  intro h
  have hb : (b == 0x25#8) = false := by simpa [Instr.wellFormed] using h
  simp [encode, decode, filterRows, FilterRow.accepts, CursorCondition.holds, BytePattern.accepts, and_full_mask, hb]

theorem fClose : Statement .fClose := fun _ => rfl

theorem fAppend (b : Byte) : Statement (.fAppend b) := by
  intro h
  have hb : (b == 0x25#8) = false := by simpa [Instr.wellFormed] using h
  simp [encode, decode, filterRows, FilterRow.accepts, CursorCondition.holds, BytePattern.accepts, and_full_mask, hb]

theorem fDrop (b : Byte) : Statement (.fDrop b) := by
  intro h
  have hb : (b == 0x25#8) = false := by simpa [Instr.wellFormed] using h
  simp [encode, decode, filterRows, FilterRow.accepts, CursorCondition.holds, BytePattern.accepts, and_full_mask, Config.statusCap, List.find?, hb]

theorem cUpdate (m : List Byte) : Statement (.cUpdate m) := by
  intro h
  have hm : m.length ≤ Config.statusCap := by simpa [Instr.wellFormed] using h
  simp [encode, decode, decodeRequest, hm]

theorem consume (b : Byte) : Statement (.consume b) := fun _ => rfl

theorem pIdleOpen : Statement .pIdleOpen := fun _ => rfl

theorem pIdleIgnore (b : Byte) : Statement (.pIdleIgnore b) := by
  intro h
  have hb : (b == 0x5B#8) = false := by simpa [Instr.wellFormed] using h
  simp [encode, decode, parserRows, ParserRow.accepts, BytePattern.accepts, and_full_mask, hb]

theorem pSeq (b : Byte) : Statement (.pSeq b) := fun _ => by
  simp [encode, decode, parserRows, ParserRow.accepts, ParserState.code, BytePattern.accepts]

theorem pId (b : Byte) : Statement (.pId b) := fun _ => by
  simp [encode, decode, parserRows, ParserRow.accepts, ParserState.code, BytePattern.accepts]

theorem pSize0 (b : Byte) : Statement (.pSize0 b) := fun _ => by
  simp [encode, decode, parserRows, ParserRow.accepts, ParserState.code, BytePattern.accepts]

theorem pSize1 (b : Byte) : Statement (.pSize1 b) := fun _ => by
  simp [encode, decode, parserRows, ParserRow.accepts, ParserState.code, BytePattern.accepts]

theorem pPay0 (b : Byte) : Statement (.pPay0 b) := fun _ => by
  simp [encode, decode, parserRows, ParserRow.accepts, ParserState.code, BytePattern.accepts]

theorem pPay1 (b : Byte) : Statement (.pPay1 b) := fun _ => by
  simp [encode, decode, parserRows, ParserRow.accepts, ParserState.code, BytePattern.accepts]

end Sys2Proof.Laws.RoundTrip
end

