-- ==== Sys2Proof/Laws/Schedule.lean ====
section
/-! SUPPORT. What the program steps and the loop PIPE can do, said once. -/

namespace Sys2Proof.Machine

theorem runSymbol_of_decode {w : Symbol} {i : Instr} (h : decode w = .ok i) (s : State) :
    runSymbol w s = exec i s := by
  simp [runSymbol, h]

/-- A program step that names an operation runs it. -/
theorem issue_of_symbol {e : ProgramStep} {w : Symbol} (h : e.symbol? = some w) (s : State) :
    issue e s = runSymbol w s := by
  simp [issue, h]

theorem issue_tx (b : Byte) (s : State) : issue (.tx b) s = .next (receive b s) := rfl

theorem issue_pipe (s : State) : issue .pipe s = pipeStep (s.withPipe .test) := rfl

/-- Every program step but TX and PIPE names an operation that decodes. -/
theorem symbol_decodes {e : ProgramStep} {w : Symbol} (h : e.symbol? = some w) : ∃ i, decode w = .ok i := by
  cases e <;> simp only [ProgramStep.symbol?, Option.some.injEq, reduceCtorEq] at h <;> subst h <;>
    exact ⟨_, rfl⟩

theorem pipeStep_off {s : State} (h : s.pipe = .off) : pipeStep s = .next s := by
  simp [pipeStep, h]

/-- At the loop's test with nothing left, PIPE ends. -/
theorem pipeStep_done {s : State} (h : s.pipe = .test) (hq : s.queue = []) (hr : s.F.ready = false) :
    pipeStep s = .next (s.withPipe .off) := by
  simp [pipeStep, h, transportReady, hq, hr]

/-- At the loop's test with a byte left, PIPE issues DATAREADY. -/
theorem pipeStep_test {s : State} (h : s.pipe = .test) (hq : s.queue ≠ [] ∨ s.F.ready = true) :
    pipeStep s = andThen (execDataReady s)
      (fun t => .next (t.withPipe (if t.F.ready then .read else .test))) := by
  have : (transportReady s || s.F.ready) = true := by
    rcases hq with hq | hq
    · cases hs : s.queue with
      | nil => exact absurd hs hq
      | cons b rest => simp [transportReady, hs]
    · simp [hq]
  simp only [pipeStep, h, this, if_true]
  rfl

theorem pipeStep_read {s : State} (h : s.pipe = .read) :
    pipeStep s = andThen (execRead s)
      (fun t => .next (t.withPipe (if t.reading then .read else .consume t.F.peek))) := by
  simp only [pipeStep, h]
  rfl

theorem pipeStep_consume {s : State} {b : Byte} (h : s.pipe = .consume b) :
    pipeStep s = andThen (execConsume b s) (fun t => .next (t.withPipe .test)) := by
  simp only [pipeStep, h]
  rfl

/-- With nothing in progress and nothing in the script nobody moves. -/
theorem advance_nothing {s : State} (hb : consumerBusy s = false) (hs : s.script = []) :
    advance s = .next s := by
  simp [advance, hb, hs]

/-- With nothing in progress the script's next step begins. -/
theorem advance_issue {s : State} {e : ProgramStep} {rest : List ProgramStep} (hb : consumerBusy s = false)
    (hs : s.script = e :: rest) : advance s = issue e (s.withScript rest) := by
  simp [advance, hb, hs]

/-- An operation in progress goes on when the script has no step of an outside agent next. -/
theorem advance_continue {s : State} (hb : consumerBusy s = true)
    (hs : ∀ e rest, s.script = e :: rest → isOutside e = false) : advance s = continueOperation s := by
  cases h : s.script with
  | nil => simp [advance, hb, h]
  | cons e rest => simp [advance, hb, h, advanceBusy, hs e rest h]

/-- Outside PIPE the operation in progress is a READ, and its next step is one more READ-step (R56). -/
theorem continueOperation_read {s : State} (h : s.pipe = .off) : continueOperation s = execRead s := by
  simp only [continueOperation, h, if_true]
  rfl

/-- Inside PIPE the operation in progress goes on with PIPE's next step (R79). -/
theorem continueOperation_pipe {s : State} (h : s.pipe ≠ .off) : continueOperation s = pipeStep s := by
  simp [continueOperation, h]

/-- A run begins with its first step. -/
theorem core_run_of_step {s t : State} (n : Nat) (h : step s = .next t) :
    Sys2Proof.core.run (n + 1) s = Sys2Proof.core.run n t := by
  have h' : Sys2Proof.core.step s = .next t := h
  simp only [Host.Core.run]
  rw [h']

end Sys2Proof.Machine
end

