-- ==== Sys2Proof/Tests/Slice0.lean ====
section
/-! SUPPORT. Tests: ill-formed terms, table rows written out, single steps from the vectors of
95_test_vectors.md, and one witness for the hypotheses of each statement. -/

namespace Sys2Proof.Tests

open Sys2Proof.Machine

/-! ## Helpers -/

/-- The filter at a cursor, buffering or not, with a byte pending or not. -/
def filterAt (buffering : Bool) (cursor : Nat) (ready : Bool) (peek : Byte) : State :=
  { State.reset with F := { buffering := buffering, cursor := BitVec.ofNat 7 cursor, ready := ready,
                            peek := peek, buf := [] } }

/-- The filter with a message open whose bytes so far are `m`. -/
def messageOf (m : List Byte) : State :=
  { State.reset with F := { buffering := true, cursor := BitVec.ofNat 7 m.length, ready := false,
                            peek := 0#8, buf := m.mapIdx (fun i b => (i, b)) } }

/-- The parser in a state. -/
def parserAt (st : StateCode) (len typeId acc : Byte) : State :=
  { State.reset with P := { state := st, len := len, typeId := typeId, acc := acc } }

/-- A view of the state a result leaves. -/
def after {α : Type} (r : Result) (view : State → α) : Option α :=
  match r with
  | .next s => some (view s)
  | .fault _ => none
  | .refused _ => none

/-- The filter's control registers. -/
def filterView (s : State) : Bool × Nat × Bool := (s.F.buffering, s.F.cursor.toNat, s.F.ready)

/-- The parser's registers and the outputs. -/
def parserView (s : State) : (StateCode × Byte × Byte × Byte) × List Output :=
  ((s.P.state, s.P.len, s.P.typeId, s.P.acc), s.out)

/-- A state is legal when the model's own check passes. -/
theorem legal_of_check {s : State} (h : brokenInvariant s = none) : Legal s :=
  (brokenInvariant_eq_none_iff s).1 h

/-! ## WellFormed refuses -/

theorem test_inband_sentinel_is_ill_formed : (Instr.fInband 0x25#8).wellFormed = false := by decide
theorem test_append_sentinel_is_ill_formed : (Instr.fAppend 0x25#8).wellFormed = false := by decide
theorem test_drop_sentinel_is_ill_formed : (Instr.fDrop 0x25#8).wellFormed = false := by decide
theorem test_ignore_open_is_ill_formed : (Instr.pIdleIgnore 0x5B#8).wellFormed = false := by decide
theorem test_long_message_is_ill_formed :
    (Instr.cUpdate (List.replicate 80 0x41#8)).wellFormed = false := by decide

/-! ## Decoding: every row, its symbol written out from R36 to R38 -/

theorem test_decode_reset : decode (.request .reset []) = .ok .reset := rfl
theorem test_decode_dataReady : decode (.request .dataReady []) = .ok .dataReady := rfl
theorem test_decode_read : decode (.request .read []) = .ok .read := rfl
theorem test_decode_isConnected : decode (.request .isConnected []) = .ok .isConnected := rfl
theorem test_decode_feed : decode (.request .feed [0x25#8]) = .ok (.feed 0x25#8) := rfl
theorem test_decode_fOpen : decode (.filterByte false 40#7 0b00100101#8) = .ok .fOpen := rfl
theorem test_decode_fInband : decode (.filterByte false 0#7 0b01011011#8) = .ok (.fInband 0x5B#8) := rfl
theorem test_decode_fClose : decode (.filterByte true 79#7 0b00100101#8) = .ok .fClose := rfl
theorem test_decode_fAppend : decode (.filterByte true 78#7 0b01000001#8) = .ok (.fAppend 0x41#8) := rfl
theorem test_decode_fDrop : decode (.filterByte true 79#7 0b01001110#8) = .ok (.fDrop 0x4E#8) := rfl
theorem test_decode_cUpdate : decode (.request .update [0x41#8]) = .ok (.cUpdate [0x41#8]) := rfl
theorem test_decode_consume : decode (.request .consume [0x5B#8]) = .ok (.consume 0x5B#8) := rfl
theorem test_decode_pIdleOpen : decode (.parserByte 0b000#3 0b01011011#8) = .ok .pIdleOpen := rfl
theorem test_decode_pIdleIgnore :
    decode (.parserByte 0b000#3 0b01011101#8) = .ok (.pIdleIgnore 0x5D#8) := rfl
theorem test_decode_pSeq : decode (.parserByte 0b001#3 0b01011011#8) = .ok (.pSeq 0x5B#8) := rfl
theorem test_decode_pId : decode (.parserByte 0b010#3 0b00100101#8) = .ok (.pId 0x25#8) := rfl
theorem test_decode_pSize0 : decode (.parserByte 0b011#3 0b01100011#8) = .ok (.pSize0 0x63#8) := rfl
theorem test_decode_pSize1 : decode (.parserByte 0b100#3 0b01011101#8) = .ok (.pSize1 0x5D#8) := rfl
theorem test_decode_pPay0 : decode (.parserByte 0b101#3 0b01011011#8) = .ok (.pPay0 0x5B#8) := rfl
theorem test_decode_pPay1 : decode (.parserByte 0b110#3 0b01100010#8) = .ok (.pPay1 0x62#8) := rfl
theorem test_decode_state_seven_refused :
    decode (.parserByte 0b111#3 0x00#8) = .error .illegalParserState := rfl
theorem test_decode_wrong_inputs_refused :
    decode (.request .reset [0x00#8]) = .error (.wrongInputs .reset) := rfl
theorem test_decode_long_message_refused :
    decode (.request .update (List.replicate 80 0x41#8)) = .error .messageTooLong := rfl

theorem test_table_word_open : decodeTableWord 8 0x25 = some .fOpen := by decide
theorem test_table_word_frame_open : decodeTableWord 8 0x5B = some .pIdleOpen := by decide
theorem test_table_word_of_operation : decodeTableWord 0 0 = none := by decide

/-! ## HexNib (L2.1) -/

theorem test_hexNib_samples :
    [0x5B#8, 0x5D#8, 0x4C#8, 0x47#8, 0x25#8, 0x20#8, 0x40#8, 0xC1#8, 0x3A#8, 0xFF#8].map hexNib =
      [0x24#8, 0x26#8, 0x15#8, 0x10#8, 0xCE#8, 0xC9#8, 0x09#8, 0x0A#8, 0xE3#8, 0x28#8] := by decide

/-! ## One step per row, from the vectors -/

/-- R2 of L2.6: the pending byte is lost and the transport keeps its bytes. -/
theorem test_reset_clears_ready :
    after (exec .reset { filterAt false 0 true 0x41#8 with queue := [0x42#8] })
      (fun s => (s.F.ready, s.queue)) = some (false, [0x42#8]) := rfl
/-- R1 of L2.6. -/
theorem test_reset_from_payload1 :
    after (exec .reset { parserAt 6#3 7#8 0#8 0#8 with connected := true })
      (fun s => (s.P.state, s.connected)) = some (0#3, false) := rfl
/-- F10: no byte is taken while one is pending. -/
theorem test_dataReady_takes_nothing_when_ready :
    after (exec .dataReady { filterAt false 0 true 0x78#8 with queue := [0x25#8] })
      (fun s => (s.queue, s.out)) = some ([0x25#8], [.dataReady true]) := by decide
/-- F1. -/
theorem test_dataReady_on_sentinel :
    after (exec .dataReady { filterAt false 5 false 0#8 with queue := [0x25#8] })
      (fun s => (filterView s, s.out)) = some ((true, 0, false), [.dataReady false]) := by decide
/-- RD1. -/
theorem test_read_pending :
    after (exec .read { filterAt false 0 true 0x5B#8 with queue := [0x61#8] })
      (fun s => (s.F.ready, s.F.peek, s.queue, s.out)) =
      some (false, 0x5B#8, [0x61#8], [.read 0x5B#8]) := by decide
/-- RD4. -/
theorem test_read_holds :
    after (exec .read State.reset) (fun s => (s.reading, s.out)) = some (true, []) := by decide
/-- The example of R65. -/
theorem test_isConnected_at_reset :
    after (exec .isConnected State.reset) (fun s => s.out) = some [.isConnected false] := by decide
/-- F2. -/
theorem test_feed_inband :
    after (exec (.feed 0x78#8) (filterAt false 0 false 0#8)) (fun s => (filterView s, s.F.peek)) =
      some ((false, 0, true), 0x78#8) := by decide
/-- F7. -/
theorem test_feed_drop :
    after (exec (.feed 0x4E#8) (filterAt true 79 false 0#8)) (fun s => (filterView s, s.F.buf)) =
      some ((true, 79, false), []) := by decide
/-- F1. -/
theorem test_fOpen : after (exec .fOpen (filterAt false 40 false 0#8)) filterView = some (true, 0, false) := by
  decide
/-- F3: 0x00 is in-band. -/
theorem test_fInband_nul :
    after (exec (.fInband 0x00#8) (filterAt false 0 false 0x78#8)) (fun s => (filterView s, s.F.peek)) =
      some ((false, 0, true), 0x00#8) := by decide
/-- F9: the terminator goes in the last entry. -/
theorem test_fClose_full :
    after (exec .fClose (messageOf (List.replicate 79 0x41#8)))
      (fun s => (filterView s, Memory.lookup s.F.buf 79)) = some ((false, 79, false), some 0x00#8) := by
  decide +kernel
/-- U1 and the example of R54. -/
theorem test_fClose_stream_open :
    after (exec .fClose (messageOf Config.openStr)) (fun s => (s.connected, Memory.lookup s.F.buf 11)) =
      some (true, some 0x00#8) := by decide +kernel
/-- F5. -/
theorem test_fAppend :
    after (exec (.fAppend 0x45#8) (filterAt true 3 false 0#8)) (fun s => (filterView s, s.F.buf)) =
      some ((true, 4, false), [(3, 0x45#8)]) := by decide
/-- F6: the last slot. -/
theorem test_fAppend_last_slot :
    after (exec (.fAppend 0x41#8) (filterAt true 78 false 0#8)) (fun s => (filterView s, s.F.buf)) =
      some ((true, 79, false), [(78, 0x41#8)]) := by decide
/-- F7. -/
theorem test_fDrop :
    exec (.fDrop 0x4E#8) (filterAt true 79 false 0#8) = .next (filterAt true 79 false 0#8) := rfl
/-- U3. -/
theorem test_cUpdate_disconnect :
    after (exec (.cUpdate Config.discStr) { State.reset with connected := true })
      (fun s => (s.connected, s.out)) = some (false, [.message Config.discStr]) := by decide +kernel
/-- U11: what stands behind a 0x00 is hidden. -/
theorem test_cUpdate_nul :
    after (exec (.cUpdate ([0x41#8, 0x42#8, 0x00#8] ++ Config.openStr)) State.reset)
      (fun s => (s.connected, s.out)) = some (false, [.message [0x41#8, 0x42#8]]) := by decide +kernel
/-- P20, through CONSUME. -/
theorem test_consume_payload1 :
    after (exec (.consume 0x62#8) (parserAt 6#3 3#8 0x58#8 0xA0#8)) parserView =
      some ((5#3, 2#8, 0x58#8, 0xAB#8), [.action 0x58#8 0xAB#8]) := by decide
/-- P1. -/
theorem test_pIdleOpen :
    after (exec .pIdleOpen (parserAt 0#3 9#8 8#8 7#8)) parserView = some ((1#3, 9#8, 8#8, 7#8), []) := by decide
/-- P2. -/
theorem test_pIdleIgnore :
    after (exec (.pIdleIgnore 0x5D#8) (parserAt 0#3 9#8 8#8 7#8)) parserView =
      some ((0#3, 9#8, 8#8, 7#8), []) := by decide
/-- P4. -/
theorem test_pSeq :
    after (exec (.pSeq 0x5B#8) (parserAt 1#3 9#8 8#8 7#8)) parserView = some ((2#3, 9#8, 8#8, 7#8), []) := by
  decide
/-- P6. -/
theorem test_pId :
    after (exec (.pId 0x25#8) (parserAt 2#3 9#8 8#8 7#8)) parserView = some ((3#3, 9#8, 0x25#8, 7#8), []) := by
  decide
/-- P7. -/
theorem test_pSize0 :
    after (exec (.pSize0 0x63#8) (parserAt 3#3 9#8 8#8 7#8)) parserView =
      some ((4#3, 0xC0#8, 8#8, 7#8), []) := by decide
/-- P14. -/
theorem test_pSize1_non_hex :
    after (exec (.pSize1 0x20#8) (parserAt 4#3 0x10#8 8#8 7#8)) parserView =
      some ((5#3, 0xD9#8, 8#8, 7#8), []) := by decide
/-- P16: the last digit of an odd length. -/
theorem test_pPay0_odd_end :
    after (exec (.pPay0 0x43#8) (parserAt 5#3 1#8 8#8 7#8)) parserView =
      some ((0#3, 0#8, 8#8, 0xC0#8), []) := by decide
/-- P17: the zero-length wrap. -/
theorem test_pPay0_wraps :
    after (exec (.pPay0 0x5D#8) (parserAt 5#3 0#8 8#8 7#8)) parserView =
      some ((6#3, 0xFF#8, 8#8, 0x60#8), []) := by decide
/-- P19. -/
theorem test_pPay1_end :
    after (exec (.pPay1 0x30#8) (parserAt 6#3 1#8 0x4C#8 0#8)) parserView =
      some ((0#3, 0#8, 0x4C#8, 0#8), [.action 0x4C#8 0#8]) := by decide
/-- P21. -/
theorem test_pPay1_non_hex :
    after (exec (.pPay1 0x5D#8) (parserAt 6#3 2#8 0x4C#8 0x40#8)) parserView =
      some ((5#3, 1#8, 0x4C#8, 0x66#8), [.action 0x4C#8 0x66#8]) := by decide

/-! ## A placed table byte runs next -/

theorem test_step_runs_placed_sentinel :
    after (step (State.reset.withFetchWord 8 0x25)) filterView = some (true, 0, false) := by decide
theorem test_step_runs_placed_frame_open :
    after (step (State.reset.withFetchWord 8 0x5B)) (fun s => s.P.state) = some 1#3 := by decide

/-! ## Witnesses: a state and operands that meet a statement's hypotheses -/

theorem witness_DecodeEncodeRoundTrip :
    (Instr.fAppend 0x41#8).wellFormed = true ∧ (Instr.cUpdate (List.replicate 79 0x41#8)).wellFormed = true := by
  decide
theorem witness_BufferReadAfterWrite : (79 ≤ 79) ∧ (79 < 80) := by decide
theorem witness_DigitPairIsTruncated : isHexDigit 0x66#8 = true ∧ isHexDigit 0x39#8 = true := by decide
theorem witness_HexNibProperties :
    ¬ (0x30 ≤ (0x3A#8 : Byte).toNat ∧ (0x3A#8 : Byte).toNat ≤ 0x39) ∧ isHexDigit 0x40#8 = false := by decide
theorem witness_ContainsIsContiguousMatch :
    (List.replicate 79 0x41#8).length ≤ Config.statusCap ∧
    69 + Config.discStr.length ≤ (List.replicate 79 (0x41#8 : Byte)).length ∧
    68 + Config.openStr.length ≤ (List.replicate 79 (0x41#8 : Byte)).length := by decide

/-- Also for InbandExposesTheByte, FeedRunsTheDecodedCase and ReadsDeliverInBandBytesInOrder. -/
theorem witness_OpenStartsAMessage :
    Legal State.reset ∧ State.reset.F.ready = false ∧ State.reset.F.buffering = false :=
  ⟨legal_of_check (by decide), rfl, rfl⟩
theorem witness_InbandExposesTheByte :
    Legal State.reset ∧ State.reset.F.ready = false ∧ State.reset.F.buffering = false ∧ 0xFF#8 ≠ 0x25#8 :=
  ⟨legal_of_check (by decide), rfl, rfl, by decide⟩
theorem witness_AppendStoresTheByte :
    Legal (filterAt true 78 false 0#8) ∧ (filterAt true 78 false 0#8).F.buffering = true ∧ 0x41#8 ≠ 0x25#8 ∧
      (filterAt true 78 false 0#8).F.cursor.toNat < 79 :=
  ⟨legal_of_check (by decide), rfl, by decide, by decide⟩
theorem witness_DropChangesNothing :
    Legal (filterAt true 79 false 0#8) ∧ (filterAt true 79 false 0#8).F.buffering = true ∧ 0x4E#8 ≠ 0x25#8 ∧
      79 ≤ (filterAt true 79 false 0#8).F.cursor.toNat :=
  ⟨legal_of_check (by decide), rfl, by decide, by decide⟩
/-- Also for NothingPendingWhileBuffering. -/
theorem witness_CloseCompletesTheMessage :
    Legal (messageOf Config.openStr) ∧ (messageOf Config.openStr).F.buffering = true :=
  ⟨legal_of_check (by decide), rfl⟩
theorem witness_FeedRunsTheDecodedCase :
    Legal (filterAt true 79 false 0#8) ∧ (filterAt true 79 false 0#8).F.ready = false :=
  ⟨legal_of_check (by decide), rfl⟩
theorem witness_DisconnectClearsTheFlag :
    Legal State.reset ∧ containsRun (cString Config.discStr) Config.discStr = true ∧
      containsRun (cString Config.discStr) Config.openStr = false :=
  ⟨legal_of_check (by decide), by decide, by decide⟩
theorem witness_StreamOpenSetsTheFlag :
    Legal State.reset ∧ containsRun (cString Config.openStr) Config.discStr = false ∧
      containsRun (cString Config.openStr) Config.openStr = true :=
  ⟨legal_of_check (by decide), by decide, by decide⟩
theorem witness_BothMatchesTakeTheParameter :
    Legal State.reset ∧ containsRun (cString (Config.openStr ++ Config.discStr)) Config.discStr = true ∧
      containsRun (cString (Config.openStr ++ Config.discStr)) Config.openStr = true :=
  ⟨legal_of_check (by decide), by decide, by decide⟩
theorem witness_OtherMessagesKeepTheFlag :
    Legal State.reset ∧ containsRun (cString [0x00#8]) Config.discStr = false ∧
      containsRun (cString [0x00#8]) Config.openStr = false :=
  ⟨legal_of_check (by decide), by decide, by decide⟩
/-- Also for ReadFinishesOrHolds with a byte pending. -/
theorem witness_IsConnectedReturnsTheFlag : Legal State.reset := legal_of_check (by decide)

/-- A message open, with the closing sentinel at the head of the transport. -/
def closing : State := { messageOf Config.openStr with queue := [0x25#8] }
/-- The flag is set, so RESET changes it. -/
def linked : State := { State.reset with connected := true }

theorem witness_OnlyUpdateChangesTheFlag :
    (∃ t, exec .reset linked = .next t ∧ t.connected ≠ linked.connected) ∧
    (∃ t, exec (.cUpdate Config.openStr) State.reset = .next t ∧ t.connected ≠ State.reset.connected) ∧
    (∃ t, exec .fClose closing = .next t ∧ t.connected ≠ closing.connected) ∧
    (∃ t, exec (.feed 0x25#8) closing = .next t ∧ t.connected ≠ closing.connected) ∧
    (∃ t, exec .dataReady closing = .next t ∧ t.connected ≠ closing.connected) ∧
    (∃ t, exec .read closing = .next t ∧ t.connected ≠ closing.connected) :=
  ⟨⟨_, rfl, by decide⟩, ⟨_, rfl, by decide +kernel⟩, ⟨_, rfl, by decide +kernel⟩,
    ⟨_, rfl, by decide +kernel⟩, ⟨_, rfl, by decide +kernel⟩, ⟨_, rfl, by decide +kernel⟩⟩

/-- The filter idle with one byte in the transport. -/
def oneByte : State := { State.reset with queue := [0x61#8] }

/-- One state for each clause; also for ReadFinishesOrHolds. -/
theorem witness_DataReadyTakesAtMostOneByte :
    (Legal (filterAt false 0 true 0x78#8) ∧ (filterAt false 0 true 0x78#8).F.ready = true) ∧
    (Legal State.reset ∧ State.reset.F.ready = false ∧ State.reset.queue = []) ∧
    (Legal oneByte ∧ oneByte.F.ready = false ∧ oneByte.queue = [0x61#8]) :=
  ⟨⟨legal_of_check (by decide), rfl⟩, ⟨legal_of_check (by decide), rfl, rfl⟩,
    ⟨legal_of_check (by decide), rfl, rfl⟩⟩
/-- Both endings of a READ-step that feeds one byte. -/
theorem witness_ReadFinishesOrHolds :
    (∃ t, exec (.feed 0x61#8) { oneByte with queue := [] } = .next t ∧ t.F.ready = true) ∧
    (∃ t, exec (.feed 0x25#8) { oneByte with queue := [] } = .next t ∧ t.F.ready = false) :=
  ⟨⟨_, rfl, rfl⟩, ⟨_, rfl, rfl⟩⟩
theorem witness_NothingPendingWhileBuffering :
    Legal closing ∧ closing.F.buffering = true := ⟨legal_of_check (by decide), rfl⟩

/-- The invariant holds of a buffering filter with nothing stored yet. -/
theorem stepInv_just_opened : StepInv (filterAt true 0 false 0#8) where
  legal := legal_of_check (by decide)
  bufWf := rfl
  stored := by intro _ i hi; exact absurd hi (Nat.not_lt_zero i)
  pendingInBand := by intro h; cases h
  readingNotReady := by intro h; cases h
  readingNotPipe := by intro h; cases h
  pipeReadReady := by intro h; cases h

/-- Also for EveryStepKeepsTheInvariant. -/
theorem witness_SentinelNeverReachesTheConsumer :
    ∃ t, StepInv (filterAt true 0 false 0#8) ∧ step (filterAt true 0 false 0#8) = .next t :=
  ⟨_, stepInv_just_opened, rfl⟩
theorem witness_ReadsDeliverInBandBytesInOrder :
    Legal closing ∧ closing.F.ready = false ∧ closing.queue = [0x25#8] :=
  ⟨legal_of_check (by decide), rfl, rfl⟩

/-- A whole status message in the transport. -/
def statusWaiting : State := { State.reset with queue := [0x25#8, 0x41#8, 0x25#8, 0x5B#8] }

theorem witness_StatusMessageIsAbsorbed :
    Legal statusWaiting ∧ statusWaiting.F.ready = false ∧ statusWaiting.F.buffering = false ∧
      statusWaiting.queue = 0x25#8 :: ([0x41#8] ++ 0x25#8 :: [0x5B#8]) ∧ 0x25#8 ∉ [0x41#8] :=
  ⟨legal_of_check (by decide), rfl, rfl, rfl, by decide⟩

/-- A status message of 80 bytes, one more than the buffer takes. -/
def longStatusWaiting : State :=
  { State.reset with queue := 0x25#8 :: (List.replicate 80 0x41#8 ++ 0x25#8 :: []) }

theorem witness_StatusMessageIsAbsorbed_truncated :
    Legal longStatusWaiting ∧ longStatusWaiting.F.ready = false ∧ longStatusWaiting.F.buffering = false ∧
      longStatusWaiting.queue = 0x25#8 :: (List.replicate 80 0x41#8 ++ 0x25#8 :: []) ∧
      0x25#8 ∉ List.replicate 80 (0x41#8 : Byte) :=
  ⟨legal_of_check (by decide), rfl, rfl, rfl, by decide⟩

theorem witness_FrameOpenStartsAFrame : Legal (parserAt 0#3 0#8 0#8 0#8) ∧ (parserAt 0#3 0#8 0#8 0#8).P.state = 0#3 :=
  ⟨legal_of_check (by decide), rfl⟩
theorem witness_BytesOutsideFramesAreIgnored :
    Legal (parserAt 0#3 0#8 0#8 0#8) ∧ (parserAt 0#3 0#8 0#8 0#8).P.state = 0#3 ∧ 0x5D#8 ≠ 0x5B#8 :=
  ⟨legal_of_check (by decide), rfl, by decide⟩
theorem witness_SequenceDigitIsDiscarded :
    Legal (parserAt 1#3 0#8 0#8 0#8) ∧ (parserAt 1#3 0#8 0#8 0#8).P.state = 1#3 :=
  ⟨legal_of_check (by decide), rfl⟩
theorem witness_TypeIdIsStored : Legal (parserAt 2#3 0#8 0#8 0#8) ∧ (parserAt 2#3 0#8 0#8 0#8).P.state = 2#3 :=
  ⟨legal_of_check (by decide), rfl⟩
theorem witness_LengthHighDigit : Legal (parserAt 3#3 0#8 0#8 0#8) ∧ (parserAt 3#3 0#8 0#8 0#8).P.state = 3#3 :=
  ⟨legal_of_check (by decide), rfl⟩
theorem witness_LengthLowDigit : Legal (parserAt 4#3 0#8 0#8 0#8) ∧ (parserAt 4#3 0#8 0#8 0#8).P.state = 4#3 :=
  ⟨legal_of_check (by decide), rfl⟩
/-- At length 0 too. -/
theorem witness_PayloadHighDigit : Legal (parserAt 5#3 0#8 0#8 0#8) ∧ (parserAt 5#3 0#8 0#8 0#8).P.state = 5#3 :=
  ⟨legal_of_check (by decide), rfl⟩
theorem witness_PayloadLowDigitEmits :
    Legal (parserAt 6#3 1#8 0x4C#8 0#8) ∧ (parserAt 6#3 1#8 0x4C#8 0#8).P.state = 6#3 :=
  ⟨legal_of_check (by decide), rfl⟩
theorem witness_ConsumeRunsTheDecodedCase : Legal (parserAt 6#3 0xFF#8 0#8 0#8) := legal_of_check (by decide)
theorem witness_OnlyPayload1EmitsActions :
    ∃ t, exec (.consume 0x30#8) (parserAt 6#3 1#8 0x4C#8 0#8) = .next t ∧
      Output.action 0x4C#8 0#8 ∈ t.out ∧ Output.action 0x4C#8 0#8 ∉ (parserAt 6#3 1#8 0x4C#8 0#8).out :=
  ⟨_, rfl, by decide, by decide⟩
/-- The shortest and the longest length. -/
theorem witness_PayloadTakesItsLength :
    (Legal (parserAt 5#3 1#8 0#8 0#8) ∧ (parserAt 5#3 1#8 0#8 0#8).P.state = 5#3 ∧
      (parserAt 5#3 1#8 0#8 0#8).P.len ≠ 0#8 ∧ [0x41#8].length = (parserAt 5#3 1#8 0#8 0#8).P.len.toNat) ∧
    (Legal (parserAt 5#3 255#8 0#8 0#8) ∧ (parserAt 5#3 255#8 0#8 0#8).P.state = 5#3 ∧
      (parserAt 5#3 255#8 0#8 0#8).P.len ≠ 0#8 ∧
      (List.replicate 255 0x41#8).length = (parserAt 5#3 255#8 0#8 0#8).P.len.toNat) :=
  ⟨⟨legal_of_check (by decide), rfl, by decide, rfl⟩,
    ⟨legal_of_check (by decide), rfl, by decide, List.length_replicate⟩⟩
theorem witness_ZeroLengthTakes256Digits :
    Legal (parserAt 5#3 0#8 0#8 0#8) ∧ (parserAt 5#3 0#8 0#8 0#8).P.state = 5#3 ∧
      (parserAt 5#3 0#8 0#8 0#8).P.len = 0#8 ∧ (List.replicate 256 0x41#8).length = 256 :=
  ⟨legal_of_check (by decide), rfl, rfl, List.length_replicate⟩
/-- The frame of W6's shape with a payload of two digits, 0 2. -/
theorem witness_FrameEmitsItsActions :
    Legal State.reset ∧ State.reset.P.state = 0#3 ∧ isHexDigit 0x30#8 = true ∧ isHexDigit 0x32#8 = true ∧
      [0x30#8, 0x31#8].all isHexDigit = true ∧
      [0x30#8, 0x31#8].length = 16 * (hexNib 0x30#8).toNat + (hexNib 0x32#8).toNat ∧
      1 ≤ [0x30#8, 0x31#8].length :=
  ⟨legal_of_check (by decide), rfl, by decide, by decide, by decide, by decide, by decide⟩

/-- One of each unit. -/
theorem witness_UnitsLeaveEachOtherAlone :
    (∃ t, exec (.consume 0x5B#8) State.reset = .next t) ∧ (∃ t, exec .read oneByte = .next t) ∧
    (∃ t, exec .isConnected State.reset = .next t) ∧ (∃ t, exec .fClose closing = .next t) ∧
    Instr.fClose ≠ .reset :=
  ⟨⟨_, rfl⟩, ⟨_, rfl⟩, ⟨_, rfl⟩, ⟨_, rfl⟩, by decide⟩
/-- A storing form at the last index, and a form that stores nothing. -/
theorem witness_BufferIsStoredOnlyAtTheCursor :
    (∃ t, exec (.fAppend 0x41#8) (filterAt true 78 false 0#8) = .next t) ∧ 79 ≠ (filterAt true 78 false 0#8).F.cursor.toNat ∧
    (∃ t, exec (.fInband 0x41#8) State.reset = .next t) ∧ State.reset.F.buffering = false ∧
    (∃ t, exec (.fDrop 0x41#8) (filterAt true 79 false 0#8) = .next t) :=
  ⟨⟨_, rfl⟩, by decide, ⟨_, rfl⟩, rfl, ⟨_, rfl⟩⟩
/-- A state for the clauses that need a pending byte, an open message, each side of the cursor's bound, and a
parser outside, and inside, IDLE. -/
theorem witness_RowsAreRefusedOutsideTheirCase :
    (Legal (filterAt false 0 true 0x78#8) ∧ (filterAt false 0 true 0x78#8).F.ready = true ∧
      (filterAt false 0 true 0x78#8).F.buffering = false) ∧
    (Legal (filterAt true 78 false 0#8) ∧ (filterAt true 78 false 0#8).F.buffering = true ∧
      (filterAt true 78 false 0#8).F.cursor.toNat < 79) ∧
    (Legal (filterAt true 79 false 0#8) ∧ 79 ≤ (filterAt true 79 false 0#8).F.cursor.toNat) ∧
    (Legal (parserAt 1#3 0#8 0#8 0#8) ∧ (parserAt 1#3 0#8 0#8 0#8).P.state ≠ 0#3) ∧
    (Legal State.reset ∧ State.reset.P.state ≠ 1#3 ∧ State.reset.P.state ≠ 2#3 ∧ State.reset.P.state ≠ 3#3 ∧
      State.reset.P.state ≠ 4#3 ∧ State.reset.P.state ≠ 5#3 ∧ State.reset.P.state ≠ 6#3) :=
  ⟨⟨legal_of_check (by decide), rfl, rfl⟩, ⟨legal_of_check (by decide), rfl, by decide⟩,
    ⟨legal_of_check (by decide), by decide⟩, ⟨legal_of_check (by decide), by decide⟩,
    ⟨legal_of_check (by decide), by decide, by decide, by decide, by decide, by decide, by decide⟩⟩
theorem witness_FirstAnswersAfterReset : (filterAt true 40 false 0#8).queue = [] := rfl
theorem witness_EveryInstructionKeepsLegal : ∃ t, exec (.pPay0 0x5D#8) (parserAt 5#3 0#8 0#8 0#8) = .next t :=
  ⟨_, rfl⟩
theorem witness_BrokenStatesFault : ¬ Legal (parserAt 7#3 0#8 0#8 0#8) ∧ Instr.fOpen ≠ .reset :=
  ⟨fun h => absurd h.stateInRange (by decide), by decide⟩

/-- A script of one program step. -/
def scripted (e : ProgramStep) : State := { State.reset with script := [e] }

theorem witness_StepRunsTheDecodedRequest :
    (scripted (.cb 0x5B#8)).reading = false ∧ (scripted (.cb 0x5B#8)).pipe = .off ∧
      (scripted (.cb 0x5B#8)).script = .cb 0x5B#8 :: [] ∧
      (ProgramStep.cb 0x5B#8).symbol? = some (.request .consume [0x5B#8]) ∧
      decode (.request .consume [0x5B#8]) = .ok (.consume 0x5B#8) := ⟨rfl, rfl, rfl, rfl, rfl⟩
theorem witness_TransportStepAppendsOneByte :
    (scripted (.tx 0x25#8)).reading = false ∧ (scripted (.tx 0x25#8)).pipe = .off ∧
      (scripted (.tx 0x25#8)).script = .tx 0x25#8 :: [] := ⟨rfl, rfl, rfl⟩
/-- With the next READ-step's cause in the transport, and a consumer operation waiting. -/
theorem witness_ReadInProgressGoesOn :
    ({ scripted .dr with reading := true } : State).reading = true ∧
    ({ scripted .dr with reading := true } : State).pipe = .off ∧
    (∀ e, ({ scripted .dr with reading := true } : State).script.head? = some e →
      e = .dr ∨ e = .rd ∨ e = .ic ∨ e = .pipe ∨ ∃ b, e = .cb b) :=
  ⟨rfl, rfl, fun e h => .inl (by cases h; rfl)⟩

/-- A held READ, with one program step waiting or none. -/
def held (script : List ProgramStep) : State := { State.reset with reading := true, script := script }

theorem witness_HeldReadWaits :
    Legal (held []) ∧ (held []).reading = true ∧ (held []).pipe = .off ∧ (held []).F.ready = false ∧
      (held []).queue = [] ∧ (held []).script = [] ∧ (held [.tx 0x78#8]).script = .tx 0x78#8 :: [] ∧
      (held [.rst]).script = .rst :: [] :=
  ⟨legal_of_check (by decide), rfl, rfl, rfl, rfl, rfl, rfl, rfl⟩

/-- An operation in progress that could go on, with an outside step waiting in the script. -/
def contested (reading : Bool) (pipe : PipePhase) (queue : List Byte) (e : ProgramStep) (il : List Bool) : State :=
  { State.reset with reading := reading, pipe := pipe, queue := queue, script := [e], interleave := il }

/-- A state is busy, not held, and has the step waiting. -/
def Contested (s : State) (e : ProgramStep) : Prop :=
  (s.reading = true ∨ s.pipe ≠ .off) ∧ ¬ (s.reading = true ∧ s.F.ready = false ∧ s.queue = []) ∧
    s.script = e :: []

/-- A READ and each phase of PIPE, the loop's test with and without a byte, under each saying of the
interleaving. -/
theorem witness_TransportMayInterleave :
    Contested (contested true .off [0x25#8] (.tx 0x78#8) [true]) (.tx 0x78#8) ∧
    Contested (contested false .test [] .rst [true]) .rst ∧
    Contested (contested true .off [0x25#8] (.tx 0x78#8) [false]) (.tx 0x78#8) ∧
    Contested (contested false .test [] (.tx 0x78#8) [false]) (.tx 0x78#8) ∧
    Contested (contested false .test [0x25#8] .rst []) .rst ∧
    Contested (contested false .read [] (.tx 0x78#8) [false]) (.tx 0x78#8) ∧
    Contested (contested false (.consume 0x5B#8) [] .rst []) .rst ∧
    (contested false .test [] .rst [true]).interleave = true :: [] ∧
    (contested false .read [] .rst [false]).interleave.head? ≠ some true ∧
    (contested false .test [] .rst []).interleave.head? ≠ some true := by
  unfold Contested
  decide
/-- RESET between the steps of PIPE abandons it. -/
theorem test_reset_inside_pipe :
    after (step (contested false (.consume 0x5B#8) [0x41#8] .rst [true])) (fun s => (s.pipe, s.queue, s.out)) =
      some (.off, [0x41#8], []) := rfl

/-- PIPE at its loop's test, a consumer's request waiting behind it. -/
def piping (queue : List Byte) : State :=
  { State.reset with pipe := .test, queue := queue, script := [.ic] }
/-- The same with a byte pending. -/
def pipingPending : State := { piping [0x25#8] with F := { State.reset.F with ready := true, peek := 0x5B#8 } }

theorem piping_quiet (q : List Byte) : ∀ e, (piping q).script.head? = some e → isOutside e = false := by
  intro e h
  cases h
  rfl

/-- A byte at the head of the transport, and a byte pending. -/
theorem witness_PipeParsesOneInBandByte :
    (Legal (piping [0x5B#8]) ∧ (piping [0x5B#8]).pipe = .test ∧ (piping [0x5B#8]).reading = false ∧
      (∀ e, (piping [0x5B#8]).script.head? = some e → isOutside e = false) ∧
      (piping [0x5B#8]).F.ready = false ∧ (piping [0x5B#8]).F.buffering = false ∧
      (piping [0x5B#8]).queue = 0x5B#8 :: [] ∧ 0x5B#8 ≠ 0x25#8) ∧
    (Legal pipingPending ∧ pipingPending.pipe = .test ∧ pipingPending.reading = false ∧
      (∀ e, pipingPending.script.head? = some e → isOutside e = false) ∧
      pipingPending.F.ready = true ∧ pipingPending.F.peek = 0x5B#8 ∧ pipingPending.queue = [0x25#8]) :=
  ⟨⟨legal_of_check (by decide), rfl, rfl, piping_quiet _, rfl, rfl, rfl, by decide⟩,
    ⟨legal_of_check (by decide), rfl, rfl, piping_quiet [0x25#8], rfl, rfl, rfl⟩⟩
theorem witness_PipeEndsWhenDrained :
    (piping []).pipe = .test ∧ (piping []).queue = [] ∧ (piping []).F.ready = false ∧
      (∀ e, (piping []).script.head? = some e → isOutside e = false) :=
  ⟨rfl, rfl, rfl, piping_quiet []⟩
/-- With no byte pending, and with one. -/
theorem witness_PipeParsesExactlyTheInBandBytes :
    (Legal (piping [0x25#8, 0x41#8, 0x25#8, 0x5B#8]) ∧ (piping [0x25#8, 0x41#8, 0x25#8, 0x5B#8]).pipe = .test ∧
      (piping [0x25#8, 0x41#8, 0x25#8, 0x5B#8]).reading = false ∧
      (∀ e, (piping [0x25#8, 0x41#8, 0x25#8, 0x5B#8]).script.head? = some e → isOutside e = false)) ∧
    (Legal pipingPending ∧ pipingPending.pipe = .test ∧ pipingPending.reading = false ∧
      (∀ e, pipingPending.script.head? = some e → isOutside e = false) ∧ pipingPending.F.ready = true) :=
  ⟨⟨legal_of_check (by decide), rfl, rfl, piping_quiet _⟩,
    ⟨legal_of_check (by decide), rfl, rfl, piping_quiet [0x25#8], rfl⟩⟩
theorem witness_PollingMoreIsCallingDataReadyMore : Legal (piping [0x25#8, 0x5B#8]) := legal_of_check (by decide)
theorem witness_PlacedTableByteRunsNext :
    Legal (filterAt true 40 false 0#8) ∧ BitVec.ofNat 8 0x25 = 0x25#8 ∧ BitVec.ofNat 8 0x5B ≠ 0x25#8 :=
  ⟨legal_of_check (by decide), rfl, by decide⟩

end Sys2Proof.Tests
end

section
/-! SUPPORT. Who moves in a step: the conditions of `advance` in words, and one rule for `step` per way the
choice can fall (R9, log 17). -/

namespace Sys2Proof.Machine

/-! ## The conditions -/

theorem consumerBusy_eq_true_iff (s : State) : consumerBusy s = true ↔ s.reading = true ∨ s.pipe ≠ .off := by
  simp [consumerBusy]

theorem consumerBusy_eq_false_iff (s : State) : consumerBusy s = false ↔ s.reading = false ∧ s.pipe = .off := by
  simp [consumerBusy]

theorem readHeld_eq_true_iff (s : State) :
    readHeld s = true ↔ s.reading = true ∧ s.F.ready = false ∧ s.queue = [] := by
  simp [readHeld, and_assoc]

theorem isOutside_eq_true_iff (e : ProgramStep) : isOutside e = true ↔ e = .rst ∨ ∃ b, e = .tx b := by
  cases e <;> simp [isOutside]

theorem transportReady_or_ready_of_not_drained {s : State} (h : ¬ (s.queue = [] ∧ s.F.ready = false)) :
    s.queue ≠ [] ∨ s.F.ready = true := by
  by_cases hq : s.queue = []
  · exact .inr (Bool.eq_true_of_not_eq_false fun hr => h ⟨hq, hr⟩)
  · exact .inl hq

/-! ## What begins: a request or RESET -/

/-- A program step whose request decodes runs the decoded instruction (R36, R48). -/
theorem issue_of_decode {e : ProgramStep} {w : Symbol} {i : Instr} (he : e.symbol? = some w)
    (hw : decode w = .ok i) (s : State) : issue e s = exec i s :=
  (issue_of_symbol he s).trans (runSymbol_of_decode hw s)

theorem issue_rst (s : State) : issue .rst s = exec .reset s := issue_of_decode rfl rfl s

/-! ## The step -/

/-- With no operation in progress the step begins the script's next entry. -/
theorem step_issue {s : State} {e : ProgramStep} {rest : List ProgramStep} (hr : s.reading = false)
    (hp : s.pipe = .off) (hs : s.script = e :: rest) : step s = issue e (s.clearOut.withScript rest) :=
  have hidle : consumerBusy s.clearOut = false := (consumerBusy_eq_false_iff _).2 ⟨hr, hp⟩
  advance_issue hidle hs

section Contest

variable {s : State} {e : ProgramStep} {rest : List ProgramStep}
  (hbusy : s.reading = true ∨ s.pipe ≠ .off)
  (hheld : ¬ (s.reading = true ∧ s.F.ready = false ∧ s.queue = []))
  (hs : s.script = e :: rest) (he : isOutside e = true)
include hbusy hheld hs he

/-- An operation that could go on and an outside step contest the step: the head of `interleave` says who
moves, and is used up (log 17). -/
theorem step_contest :
    step s =
      if s.interleave.headD false then
        issue e ((s.clearOut.withScript rest).withInterleave s.interleave.tail)
      else continueOperation (s.clearOut.withInterleave s.interleave.tail) := by
  have hbusy' : consumerBusy s.clearOut = true := (consumerBusy_eq_true_iff _).2 hbusy
  have hheld' : readHeld s.clearOut ≠ true := mt (readHeld_eq_true_iff _).1 hheld
  simp [step, advance, advanceBusy, hbusy', hs, he, hheld']

/-- The outside step goes first where the interleaving says so. -/
theorem step_outside_first {il : List Bool} (hil : s.interleave = true :: il) :
    step s = issue e ((s.clearOut.withScript rest).withInterleave il) := by
  simp [step_contest hbusy hheld hs he, hil]

/-- The operation goes on first where the interleaving says so, or says nothing. -/
theorem step_operation_first (hil : s.interleave.head? ≠ some true) :
    step s = continueOperation (s.clearOut.withInterleave s.interleave.tail) := by
  have hsays : s.interleave.headD false ≠ true := by
    cases h : s.interleave with
    | nil => simp
    | cons first il => simpa [h] using hil
  rw [step_contest hbusy hheld hs he, if_neg hsays]

end Contest

/-! ## The obligations of 00_scope.md -/

/-- Settles O51: with nothing in progress the script's next entry begins, and it runs what it decodes to. -/
theorem stepRunsTheDecodedRequest : Obligations.StepRunsTheDecodedRequest := by
  intro s e rest w i hr hp hs he hw
  calc step s
    _ = issue e (s.clearOut.withScript rest) := step_issue hr hp hs
    _ = exec i (s.clearOut.withScript rest) := issue_of_decode he hw _

/-- Settles O52: with nothing in progress the transport's step begins, and it is `receive`. -/
theorem transportStepAppendsOneByte : Obligations.TransportStepAppendsOneByte := by
  intro s b rest hr hp hs
  calc step s
    _ = issue (.tx b) (s.clearOut.withScript rest) := step_issue hr hp hs
    _ = .next (receive b (s.clearOut.withScript rest)) := issue_tx b _

/-- Settles O55: `step_outside_first` for the one order, and for the other `step_operation_first` with what
the operation in progress does next, by the phase of PIPE. -/
theorem transportMayInterleave : Obligations.TransportMayInterleave := by
  intro s e rest hbusy hheld hs
  refine ⟨fun il hil => ⟨?tx, ?rst⟩, ?after⟩
  case tx =>
    rintro b rfl
    exact (step_outside_first hbusy hheld hs rfl hil).trans (issue_tx b _)
  case rst =>
    rintro rfl
    exact (step_outside_first hbusy hheld hs rfl hil).trans (issue_rst _)
  case after =>
    intro hil he x
    have hstep : step s = continueOperation x :=
      step_operation_first hbusy hheld hs ((isOutside_eq_true_iff e).2 he) hil
    have hpipe : s.pipe ≠ .off → step s = pipeStep x := fun hp =>
      hstep.trans (continueOperation_pipe hp)
    cases hp : s.pipe with
    | off => exact hstep.trans (continueOperation_read hp)
    | test =>
      rw [hpipe (by simp [hp])]
      by_cases hdrained : s.queue = [] ∧ s.F.ready = false
      · simp only [if_pos hdrained]
        exact pipeStep_done hp hdrained.1 hdrained.2
      · simp only [if_neg hdrained]
        exact pipeStep_test hp (transportReady_or_ready_of_not_drained hdrained)
    | read => exact (hpipe (by simp [hp])).trans (pipeStep_read hp)
    | consume b => exact (hpipe (by simp [hp])).trans (pipeStep_consume hp)

end Sys2Proof.Machine
end

section
/-! SUPPORT. What an instruction can do, said once (`exec_effect`): it begins with the check of R25, and then
it is RESET, one row of the filter, one row of the parser, a poll of the filter, or an output. -/

namespace Sys2Proof.Machine

/-! ## The check of R25 comes first -/

theorem andThen_checked (s : State) (k : Result) (f : State → Result) :
    andThen (checked s k) f = checked s (andThen k f) := by
  unfold checked
  cases brokenInvariant s <;> rfl

/-- Every instruction but RESET begins with the check of R25 (log 5). -/
theorem exec_eq_checked {i : Instr} (hi : i ≠ .reset) (s : State) : ∃ k, exec i s = checked s k := by
  cases i with
  | reset => exact absurd rfl hi
  | dataReady => exact ⟨_, andThen_checked s _ _⟩
  | read => exact ⟨_, andThen_checked s _ _⟩
  | _ => exact ⟨_, rfl⟩

theorem legal_of_exec {i : Instr} {s t : State} (hi : i ≠ .reset) (h : exec i s = .next t) : Legal s := by
  obtain ⟨k, hk⟩ := exec_eq_checked hi s
  exact (checked_eq_next (hk ▸ h)).1

/-! ## The filter's rows (R50 to R54) -/

/-- What F.APPEND leaves (R52). -/
def appendByte (b : Byte) (s : State) : State :=
  advanceCursor (s.withF (s.F.withBuf (Memory.insert s.F.buf s.F.cursor.toNat b)))

/-- The terminator written at the cursor (R54). -/
def terminate (s : State) : State :=
  s.withF (s.F.withBuf (Memory.insert s.F.buf s.F.cursor.toNat 0x00#8))

/-- What F.CLOSE leaves (R54). -/
def endMessage (s : State) : State :=
  update ((List.range s.F.cursor.toNat).map (bufByte (terminate s)))
    ((terminate s).withF ((terminate s).F.withBuffering false))

/-- The filter in state `s` takes the byte `b` by the row `i` and leaves `t` (R37, R50 to R54). -/
inductive FilterStep (s : State) : Byte → Instr → State → Prop where
  | opens (hr : s.F.ready = false) (hb : s.F.buffering = false) :
      FilterStep s Config.sent .fOpen (s.withF ((s.F.withBuffering true).withCursor 0#7))
  | inBand (b : Byte) (hr : s.F.ready = false) (hb : s.F.buffering = false) (hne : b ≠ Config.sent) :
      FilterStep s b (.fInband b) (s.withF ((s.F.withPeek b).withReady true))
  | closes (hb : s.F.buffering = true) : FilterStep s Config.sent .fClose (endMessage s)
  | appends (b : Byte) (hb : s.F.buffering = true) (hne : b ≠ Config.sent)
      (hc : s.F.cursor.toNat < Config.statusCap) : FilterStep s b (.fAppend b) (appendByte b s)
  | drops (b : Byte) (hb : s.F.buffering = true) (hne : b ≠ Config.sent)
      (hc : Config.statusCap ≤ s.F.cursor.toNat) : FilterStep s b (.fDrop b) s

theorem execFAppend_of_selected {s : State} {b : Byte} (hl : Legal s) (hb : s.F.buffering = true)
    (hne : b ≠ Config.sent) (hc : s.F.cursor.toNat < Config.statusCap) :
    execFAppend b s = .next (appendByte b s) := by
  rw [execFAppend, whenSelected_of_legal hl, memWrite_ok b hc.le]
  simp [hb, hne, hc, appendByte]

theorem execFClose_of_selected {s : State} (hl : Legal s) (hb : s.F.buffering = true) :
    execFClose s = .next (endMessage s) := by
  have hcap := hl.cursorInBuffer hb
  rw [execFClose, whenSelected_of_legal hl, memWrite_ok 0x00#8 hcap, andThen_of_next, closeMessage_ok hcap, hb]
  rfl

/-- A selected row answers what `FilterStep` says, from every legal state. -/
theorem FilterStep.exec_eq {s t : State} {b : Byte} {i : Instr} (hl : Legal s) (h : FilterStep s b i t) :
    exec i s = .next t := by
  cases h with
  | opens hr hb => simp [exec, execFOpen, whenSelected_of_legal hl, hr, hb]
  | inBand b hr hb hne => simp [exec, execFInband, whenSelected_of_legal hl, hr, hb, hne]
  | closes hb => exact execFClose_of_selected hl hb
  | appends b hb hne hc => exact execFAppend_of_selected hl hb hne hc
  | drops b hb hne hc => simp [exec, execFDrop, whenSelected_of_legal hl, hb, hne, hc]

/-- A row answers at most one next state. -/
theorem FilterStep.of_exec {s t u : State} {b : Byte} {i : Instr} (hl : Legal s) (h : FilterStep s b i u)
    (he : exec i s = .next t) : FilterStep s b i t := by
  obtain rfl : u = t := by simpa [h.exec_eq hl] using he
  exact h

theorem filterStep_of_fOpen {s t : State} (h : exec .fOpen s = .next t) :
    FilterStep s Config.sent .fOpen t := by
  obtain ⟨hl, hc, -⟩ := whenSelected_eq_next h
  obtain ⟨hr, hb⟩ : s.F.ready = false ∧ s.F.buffering = false := by simpa using hc
  exact (FilterStep.opens hr hb).of_exec hl h

theorem filterStep_of_fInband {s t : State} {b : Byte} (h : exec (.fInband b) s = .next t) :
    FilterStep s b (.fInband b) t := by
  obtain ⟨hl, hc, -⟩ := whenSelected_eq_next h
  obtain ⟨⟨hr, hb⟩, hne⟩ : (s.F.ready = false ∧ s.F.buffering = false) ∧ b ≠ Config.sent := by
    simpa using hc
  exact (FilterStep.inBand b hr hb hne).of_exec hl h

theorem filterStep_of_fClose {s t : State} (h : exec .fClose s = .next t) :
    FilterStep s Config.sent .fClose t := by
  obtain ⟨hl, hb, -⟩ := whenSelected_eq_next h
  exact (FilterStep.closes hb).of_exec hl h

theorem filterStep_of_fAppend {s t : State} {b : Byte} (h : exec (.fAppend b) s = .next t) :
    FilterStep s b (.fAppend b) t := by
  obtain ⟨hl, hc, -⟩ := whenSelected_eq_next h
  obtain ⟨⟨hb, hne⟩, hlt⟩ :
      (s.F.buffering = true ∧ b ≠ Config.sent) ∧ s.F.cursor.toNat < Config.statusCap := by simpa using hc
  exact (FilterStep.appends b hb hne hlt).of_exec hl h

theorem filterStep_of_fDrop {s t : State} {b : Byte} (h : exec (.fDrop b) s = .next t) :
    FilterStep s b (.fDrop b) t := by
  obtain ⟨hl, hc, -⟩ := whenSelected_eq_next h
  obtain ⟨⟨hb, hne⟩, hle⟩ :
      (s.F.buffering = true ∧ b ≠ Config.sent) ∧ Config.statusCap ≤ s.F.cursor.toNat := by simpa using hc
  exact (FilterStep.drops b hb hne hle).of_exec hl h

/-- With no byte pending every byte is taken by some row, and FEED runs that row (R37, R49). -/
theorem execFeed_takes {s : State} (hl : Legal s) (hr : s.F.ready = false) (b : Byte) :
    ∃ i t, FilterStep s b i t ∧ execFeed b s = .next t := by
  suffices ∃ i t, FilterStep s b i t ∧ execFeed b s = exec i s by
    obtain ⟨i, t, hstep, heq⟩ := this
    exact ⟨i, t, hstep, heq.trans (hstep.exec_eq hl)⟩
  rw [execFeed_of_legal hl hr]
  cases hb : s.F.buffering with
  | false =>
    by_cases hs : b = Config.sent
    · subst hs; exact ⟨_, _, .opens hr hb, rfl⟩
    · exact ⟨_, _, .inBand b hr hb hs, by simp [hs, exec]⟩
  | true =>
    by_cases hs : b = Config.sent
    · subst hs; exact ⟨_, _, .closes hb, rfl⟩
    · by_cases hc : s.F.cursor.toNat < Config.statusCap
      · exact ⟨_, _, .appends b hb hs hc, by simp [hs, hc, exec]⟩
      · exact ⟨_, _, .drops b hb hs (Nat.le_of_not_lt hc), by simp [hs, hc, exec]⟩

theorem filterStep_of_execFeed {s t : State} {b : Byte} (h : execFeed b s = .next t) :
    ∃ i, FilterStep s b i t := by
  obtain ⟨hl, hc, -⟩ := whenSelected_eq_next h
  have hr : s.F.ready = false := by simpa using hc
  obtain ⟨i, u, hstep, heq⟩ := execFeed_takes hl hr b
  obtain rfl : u = t := by simpa [heq] using h
  exact ⟨i, hstep⟩

/-! ## Polling the filter (R55) -/

/-- A poll of the filter: nothing can be taken, or one transport byte is. -/
inductive Polled (s : State) : State → Prop where
  | idle (h : s.F.ready = true ∨ s.queue = []) : Polled s s
  | fed {t : State} {b : Byte} {rest : List Byte} {i : Instr} (hr : s.F.ready = false)
      (hq : s.queue = b :: rest) (h : FilterStep (s.withQueue rest) b i t) : Polled s t

theorem polled_of_pollFilter {s t : State} (h : pollFilter s = .next t) : Polled s t := by
  obtain ⟨-, ⟨hidle, rfl⟩ | ⟨hr, b, rest, hq, hfeed⟩⟩ := pollFilter_eq_next h
  · exact .idle hidle
  · obtain ⟨i, hstep⟩ := filterStep_of_execFeed hfeed
    exact .fed hr hq hstep

theorem exists_pollFilter {s : State} (hl : Legal s) : ∃ t, pollFilter s = .next t := by
  by_cases hidle : s.F.ready = true ∨ s.queue = []
  · exact ⟨s, pollFilter_idle hl hidle⟩
  · obtain ⟨hr, hq⟩ : s.F.ready = false ∧ s.queue ≠ [] := by simpa using hidle
    obtain ⟨b, rest, hq⟩ := List.exists_cons_of_ne_nil hq
    obtain ⟨i, t, -, ht⟩ := execFeed_takes (hl.congr (t := s.withQueue rest) rfl rfl) hr b
    exact ⟨t, (pollFilter_feed hl hr hq).trans ht⟩

/-- With a byte pending a poll takes nothing. -/
theorem Polled.eq_of_ready {s t : State} (h : Polled s t) (hr : s.F.ready = true) : t = s := by
  cases h with
  | idle => rfl
  | fed hr' => simp [hr] at hr'

/-! ## The parser's rows (R67 to R74) -/

/-- The rows of R38. -/
inductive IsParserRow : Instr → Prop where
  | pIdleOpen : IsParserRow .pIdleOpen
  | pIdleIgnore (b : Byte) : IsParserRow (.pIdleIgnore b)
  | pSeq (b : Byte) : IsParserRow (.pSeq b)
  | pId (b : Byte) : IsParserRow (.pId b)
  | pSize0 (b : Byte) : IsParserRow (.pSize0 b)
  | pSize1 (b : Byte) : IsParserRow (.pSize1 b)
  | pPay0 (b : Byte) : IsParserRow (.pPay0 b)
  | pPay1 (b : Byte) : IsParserRow (.pPay1 b)

/-- What every row of the parser leaves: only the parser's registers and the outputs may differ, the state is
one of the seven, and PAYLOAD_1 has a digit left (R25). -/
structure ParserStep (s t : State) : Prop where
  filter : t.F = s.F
  connected : t.connected = s.connected
  queue : t.queue = s.queue
  reading : t.reading = s.reading
  schedule : SameSchedule s t
  state : ∃ p : ParserState, t.P.state = p.code ∧ (p = .payload1 → t.P.len ≠ 0)

theorem ParserStep.withP {s : State} {r : ParserRegs} (p : ParserState) (hstate : r.state = p.code)
    (hlen : p = .payload1 → r.len ≠ 0) : ParserStep s (s.withP r) :=
  ⟨rfl, rfl, rfl, rfl, ⟨rfl, rfl, rfl, rfl⟩, p, hstate, hlen⟩

theorem ParserStep.emit {s t : State} (h : ParserStep s t) (o : Output) : ParserStep s (t.emit o) := by
  obtain ⟨hF, hC, hq, hr, ⟨hp, hs, hi, he⟩, hstate⟩ := h
  exact ⟨hF, hC, hq, hr, ⟨hp, hs, hi, he⟩, hstate⟩

/-- After a payload digit PAYLOAD_1 is entered only with a digit left (R73, R74). -/
theorem ParserStep.afterDigit {s : State} {r : ParserRegs} (other : ParserState) :
    ParserStep s (s.withP (r.withState (afterDigit r.len other))) := by
  by_cases h : r.len = 0
  · exact .withP .idle (if_pos h) nofun
  · exact .withP other (if_neg h) fun _ => h

theorem parserStep_of_row {i : Instr} (hi : IsParserRow i) {s t : State} (h : exec i s = .next t) :
    ParserStep s t := by
  have row {m : String} {c : Bool} {u : State} (hu : c = true → ParserStep s u)
      (hw : whenSelected m s c (.next u) = .next t) : ParserStep s t := by
    obtain ⟨-, hc, hut⟩ := whenSelected_eq_next hw
    cases hut
    exact hu hc
  cases hi with
  | pIdleOpen => exact row (fun _ => .withP .sequenceNumber rfl nofun) h
  | pIdleIgnore b =>
    refine row (fun hc => ?_) h
    have hidle : s.P.state = ParserState.idle.code := by
      simp only [parserIn, Bool.and_eq_true, beq_iff_eq] at hc
      exact hc.1
    exact .withP (r := s.P) .idle hidle nofun
  | pSeq b => exact row (fun _ => .withP .packetId rfl nofun) h
  | pId b => exact row (fun _ => .withP .payloadSize0 rfl nofun) h
  | pSize0 b => exact row (fun _ => .withP .payloadSize1 rfl nofun) h
  | pSize1 b => exact row (fun _ => .withP .payload0 rfl nofun) h
  | pPay0 b => exact row (fun _ => .afterDigit .payload1) h
  | pPay1 b => exact row (fun _ => (ParserStep.afterDigit .payload0).emit _) h

/-- In a legal state every byte is taken by some row of the parser: CONSUME runs it, and it answers (R66). -/
theorem execConsume_takes {s : State} (hl : Legal s) (b : Byte) :
    ∃ i t, IsParserRow i ∧ execConsume b s = exec i s ∧ exec i s = .next t := by
  obtain ⟨p, hp⟩ := exists_parserState hl
  have hin : parserIn s p = true := by simp [parserIn, hp]
  have row {m : String} {c : Bool} {u : State} (hc : c = true) :
      whenSelected m s c (.next u) = .next u := by rw [whenSelected_of_legal hl, if_pos hc]
  rw [execConsume_of_state hl p hp]
  cases p with
  | idle =>
    by_cases hb : b = Config.frameOpen
    · exact ⟨.pIdleOpen, _, .pIdleOpen, if_pos hb, row hin⟩
    · exact ⟨.pIdleIgnore b, _, .pIdleIgnore b, if_neg hb, row (by simp [hin, hb])⟩
  | sequenceNumber => exact ⟨.pSeq b, _, .pSeq b, rfl, row hin⟩
  | packetId => exact ⟨.pId b, _, .pId b, rfl, row hin⟩
  | payloadSize0 => exact ⟨.pSize0 b, _, .pSize0 b, rfl, row hin⟩
  | payloadSize1 => exact ⟨.pSize1 b, _, .pSize1 b, rfl, row hin⟩
  | payload0 => exact ⟨.pPay0 b, _, .pPay0 b, rfl, row hin⟩
  | payload1 => exact ⟨.pPay1 b, _, .pPay1 b, rfl, row hin⟩

theorem parserStep_of_execConsume {s t : State} {b : Byte} (h : execConsume b s = .next t) :
    ParserStep s t := by
  obtain ⟨i, -, hrow, heq, -⟩ := execConsume_takes (checked_eq_next h).1 b
  exact parserStep_of_row hrow (heq ▸ h)

/-! ## Every instruction -/

/-- The instruction `i` run in `s` leaves `t`: what each row of the table can do. -/
inductive Effect (s : State) : Instr → State → Prop where
  | reset : Effect s .reset (abandonConsumer (resetRegisters (s.epoch + 1) s))
  | dataReady {t : State} (h : Polled s t) : Effect s .dataReady (t.emit (.dataReady t.F.ready))
  | read {t : State} (h : Polled s t) : Effect s .read (finishOrHold t)
  | isConnected : Effect s .isConnected (s.emit (.isConnected s.connected))
  | update (m : List Byte) : Effect s (.cUpdate m) (update m s)
  | feed {t : State} {b : Byte} {i : Instr} (h : FilterStep s b i t) : Effect s (.feed b) t
  | filterRow {t : State} {b : Byte} {i : Instr} (h : FilterStep s b i t) : Effect s i t
  | consume {t : State} (b : Byte) (h : ParserStep s t) : Effect s (.consume b) t
  | parserRow {t : State} {i : Instr} (hi : IsParserRow i) (h : ParserStep s t) : Effect s i t

theorem effect_of_parserRow {i : Instr} (hi : IsParserRow i) {s t : State} (h : exec i s = .next t) :
    Effect s i t :=
  .parserRow hi (parserStep_of_row hi h)

theorem exec_effect {i : Instr} {s t : State} (h : exec i s = .next t) : Effect s i t := by
  cases i with
  | reset => cases h; exact .reset
  | dataReady =>
    obtain ⟨u, hu, ht⟩ := andThen_eq_next.1 h
    cases ht
    exact .dataReady (polled_of_pollFilter hu)
  | read =>
    obtain ⟨u, hu, ht⟩ := andThen_eq_next.1 h
    cases ht
    exact .read (polled_of_pollFilter hu)
  | isConnected =>
    obtain ⟨-, ht⟩ := checked_eq_next h
    cases ht
    exact .isConnected
  | cUpdate m =>
    obtain ⟨-, ht⟩ := checked_eq_next h
    cases ht
    exact .update m
  | feed b =>
    obtain ⟨i, hstep⟩ := filterStep_of_execFeed h
    exact .feed hstep
  | fOpen => exact .filterRow (filterStep_of_fOpen h)
  | fInband b => exact .filterRow (filterStep_of_fInband h)
  | fClose => exact .filterRow (filterStep_of_fClose h)
  | fAppend b => exact .filterRow (filterStep_of_fAppend h)
  | fDrop b => exact .filterRow (filterStep_of_fDrop h)
  | consume b => exact .consume b (parserStep_of_execConsume h)
  | pIdleOpen => exact effect_of_parserRow .pIdleOpen h
  | pIdleIgnore b => exact effect_of_parserRow (.pIdleIgnore b) h
  | pSeq b => exact effect_of_parserRow (.pSeq b) h
  | pId b => exact effect_of_parserRow (.pId b) h
  | pSize0 b => exact effect_of_parserRow (.pSize0 b) h
  | pSize1 b => exact effect_of_parserRow (.pSize1 b) h
  | pPay0 b => exact effect_of_parserRow (.pPay0 b) h
  | pPay1 b => exact effect_of_parserRow (.pPay1 b) h

/-! ## What the filter's rows and a poll leave unchanged -/

theorem FilterStep.parser_eq {s t : State} {b : Byte} {i : Instr} (h : FilterStep s b i t) : t.P = s.P := by
  cases h <;> rfl

theorem FilterStep.reading_eq {s t : State} {b : Byte} {i : Instr} (h : FilterStep s b i t) :
    t.reading = s.reading := by
  cases h <;> rfl

theorem FilterStep.sameSchedule {s t : State} {b : Byte} {i : Instr} (h : FilterStep s b i t) :
    SameSchedule s t := by
  cases h <;> exact ⟨rfl, rfl, rfl, rfl⟩

theorem Polled.reading_eq {s t : State} (h : Polled s t) : t.reading = s.reading := by
  cases h with
  | idle => rfl
  | fed _ _ hstep => exact hstep.reading_eq

theorem Polled.sameSchedule {s t : State} (h : Polled s t) : SameSchedule s t := by
  cases h with
  | idle => exact ⟨rfl, rfl, rfl, rfl⟩
  | fed _ _ hstep =>
    obtain ⟨hp, hs, hi, he⟩ := hstep.sameSchedule
    exact ⟨hp, hs, hi, he⟩

/-- Of the filter's rows only F.CLOSE changes the flag (R54). -/
theorem FilterStep.connected_eq_or_closes {s t : State} {b : Byte} {i : Instr} (h : FilterStep s b i t) :
    t.connected = s.connected ∨ s.F.buffering = true ∧ i = .fClose ∧ b = Config.sent := by
  cases h with
  | closes hb => exact .inr ⟨hb, rfl, rfl⟩
  | opens | inBand | appends | drops => exact .inl rfl

/-- A poll changes the flag only by taking a closing sentinel. -/
theorem Polled.connected_eq_or_closes {s t : State} (h : Polled s t) :
    t.connected = s.connected ∨ s.F.buffering = true ∧ s.queue.head? = some Config.sent := by
  cases h with
  | idle => exact .inl rfl
  | fed _ hq hstep =>
    obtain hsame | ⟨hb, -, rfl⟩ := hstep.connected_eq_or_closes
    · exact .inl hsame
    · exact .inr ⟨hb, by rw [hq]; rfl⟩

@[simp] theorem finishOrHold_connected (s : State) : (finishOrHold s).connected = s.connected := by
  cases h : s.F.ready with
  | true => rw [finishOrHold_ready h]; rfl
  | false => rw [finishOrHold_hold h]; rfl

@[simp] theorem finishOrHold_pipe (s : State) : (finishOrHold s).pipe = s.pipe := by
  cases h : s.F.ready with
  | true => rw [finishOrHold_ready h]; rfl
  | false => rw [finishOrHold_hold h]; rfl

@[simp] theorem finishOrHold_P (s : State) : (finishOrHold s).P = s.P := by
  cases h : s.F.ready with
  | true => rw [finishOrHold_ready h]; rfl
  | false => rw [finishOrHold_hold h]; rfl

/-- Whether READ finishes or holds, no byte is pending after it (R56). -/
theorem finishOrHold_F (s : State) : (finishOrHold s).F = s.F.withReady false := by
  cases h : s.F.ready with
  | true => rw [finishOrHold_ready h]; rfl
  | false => rw [finishOrHold_hold h, FilterRegs.withReady, ← h]; rfl

theorem finishOrHold_reading (s : State) : (finishOrHold s).reading = !s.F.ready := by
  cases h : s.F.ready with
  | true => rw [finishOrHold_ready h]; rfl
  | false => rw [finishOrHold_hold h]; rfl

end Sys2Proof.Machine
end

section
/-! SUPPORT. The invariant of 10_state.md R25 and of a step, and the statements of that family. -/

namespace Sys2Proof.Machine

/-! ## R25 is kept -/

/-- A change of the filter's registers keeps R25 if it keeps (I1) and (I2). -/
theorem Legal.of_filter {s t : State} (h : Legal s) (hP : t.P = s.P)
    (hready : t.F.ready = true → t.F.buffering = false)
    (hcursor : t.F.buffering = true → t.F.cursor.toNat ≤ Config.statusCap) : Legal t :=
  ⟨hready, hcursor, hP ▸ h.stateInRange, hP ▸ h.digitsLeft⟩

theorem ParserState.code_toNat_le (p : ParserState) : p.code.toNat ≤ 6 := by
  cases p <;> decide

theorem ParserState.code_injective : Function.Injective ParserState.code := by
  intro p q h
  exact Option.some.inj (((ofCode_code p).symm.trans (congrArg ParserState.ofCode h)).trans (ofCode_code q))

theorem ParserStep.keeps_legal {s t : State} (h : ParserStep s t) (hl : Legal s) : Legal t := by
  obtain ⟨p, hstate, hlen⟩ := h.state
  refine ⟨h.filter ▸ hl.readyNotBuffering, h.filter ▸ hl.cursorInBuffer, ?range, ?digits⟩
  case range => exact hstate ▸ ParserState.code_toNat_le p
  case digits => exact fun hpay => hlen (ParserState.code_injective (hstate.symm.trans hpay))

theorem FilterStep.keeps_legal {s t : State} {b : Byte} {i : Instr} (h : FilterStep s b i t)
    (hl : Legal s) : Legal t := by
  cases h with
  | opens hr hb => exact hl.of_filter rfl (by simp [hr]) (by simp)
  | inBand b hr hb hne => exact hl.of_filter rfl (by simp [hb]) (by simp [hb])
  | closes hb => exact hl.of_filter rfl (fun _ => rfl) nofun
  | appends b hb hne hc =>
    refine hl.of_filter rfl hl.readyNotBuffering fun _ => ?_
    calc (s.F.cursor + 1).toNat
      _ = s.F.cursor.toNat + 1 := cursor_succ_toNat hc
      _ ≤ Config.statusCap := hc
  | drops => exact hl

theorem Polled.keeps_legal {s t : State} (h : Polled s t) (hl : Legal s) : Legal t := by
  cases h with
  | idle => exact hl
  | fed _ _ hstep => exact hstep.keeps_legal (hl.congr rfl rfl)

theorem finishOrHold_keeps_legal {s : State} (hl : Legal s) : Legal (finishOrHold s) :=
  hl.of_filter (finishOrHold_P s) (by simp [finishOrHold_F]) (by simpa [finishOrHold_F] using hl.cursorInBuffer)

theorem legal_after_reset (s : State) (n : Nat) : Legal (abandonConsumer (resetRegisters n s)) where
  readyNotBuffering := nofun
  cursorInBuffer := nofun
  stateInRange := by simp [ParserState.code]
  digitsLeft := by simp [ParserState.code]

theorem Effect.legal {s t : State} {i : Instr} (h : Effect s i t) (hl : i ≠ .reset → Legal s) : Legal t := by
  cases h with
  | reset => exact legal_after_reset s _
  | dataReady h => exact (h.keeps_legal (hl nofun)).congr rfl rfl
  | read h => exact finishOrHold_keeps_legal (h.keeps_legal (hl nofun))
  | isConnected => exact (hl nofun).congr rfl rfl
  | update m => exact (hl nofun).congr rfl rfl
  | feed h => exact h.keeps_legal (hl nofun)
  | filterRow h => exact h.keeps_legal (hl (by cases h <;> nofun))
  | consume b h => exact h.keeps_legal (hl nofun)
  | parserRow hi h => exact h.keeps_legal (hl (by cases hi <;> nofun))

/-! ## The filter's registers -/

/-- What `StepInv` asks of the filter's registers beside R25. -/
structure FilterInv (r : FilterRegs) : Prop where
  bufWf : Memory.wf r.buf = true
  stored : r.buffering = true → ∀ i < r.cursor.toNat,
    ∃ b, Memory.lookup r.buf i = some b ∧ b ≠ Config.sent
  pendingInBand : r.ready = true → r.peek ≠ Config.sent

theorem FilterInv.withReady_false {r : FilterRegs} (h : FilterInv r) : FilterInv (r.withReady false) :=
  ⟨h.bufWf, h.stored, nofun⟩

/-- A byte stored at the cursor is one more byte of the message (R52). -/
theorem FilterInv.append {r : FilterRegs} (h : FilterInv r) {b : Byte} (hb : r.buffering = true)
    (hne : b ≠ Config.sent) (hc : r.cursor.toNat < Config.statusCap) :
    FilterInv ((r.withBuf (Memory.insert r.buf r.cursor.toNat b)).withCursor (r.cursor + 1)) where
  bufWf := Memory.wf_insert b h.bufWf hc.le
  stored := by
    intro _ i hi
    have hi : i < r.cursor.toNat + 1 := by rwa [← cursor_succ_toNat hc]
    by_cases hlast : i = r.cursor.toNat
    · exact ⟨b, by simp [Memory.lookup_insert, hlast], hne⟩
    · simpa [Memory.lookup_insert, hlast] using h.stored hb i (by omega)
  pendingInBand := h.pendingInBand

theorem FilterStep.keeps_filterInv {s t : State} {b : Byte} {i : Instr} (h : FilterStep s b i t)
    (hl : Legal s) (hF : FilterInv s.F) : FilterInv t.F := by
  cases h with
  | opens hr hb => exact ⟨hF.bufWf, fun _ i hi => absurd hi (Nat.not_lt_zero i), hF.pendingInBand⟩
  | inBand b hr hb hne => exact ⟨hF.bufWf, hF.stored, fun _ => hne⟩
  | closes hb => exact ⟨Memory.wf_insert _ hF.bufWf (hl.cursorInBuffer hb), nofun, hF.pendingInBand⟩
  | appends b hb hne hc => exact hF.append hb hne hc
  | drops => exact hF

theorem Polled.keeps_filterInv {s t : State} (h : Polled s t) (hl : Legal s) (hF : FilterInv s.F) :
    FilterInv t.F := by
  cases h with
  | idle => exact hF
  | fed _ _ hstep => exact hstep.keeps_filterInv (hl.congr rfl rfl) hF

/-! ## The block's part of the invariant -/

/-- What `StepInv` asks of the block's registers. -/
structure BlockInv (s : State) : Prop where
  legal : Legal s
  filter : FilterInv s.F

theorem BlockInv.congr {s t : State} (h : BlockInv s) (hF : t.F = s.F) (hP : t.P = s.P) : BlockInv t :=
  ⟨h.legal.congr hF hP, hF ▸ h.filter⟩

theorem Polled.keeps_blockInv {s t : State} (h : Polled s t) (hb : BlockInv s) : BlockInv t :=
  ⟨h.keeps_legal hb.legal, h.keeps_filterInv hb.legal hb.filter⟩

theorem finishOrHold_keeps_blockInv {s : State} (hb : BlockInv s) : BlockInv (finishOrHold s) :=
  ⟨finishOrHold_keeps_legal hb.legal, finishOrHold_F s ▸ hb.filter.withReady_false⟩

theorem ParserStep.keeps_blockInv {s t : State} (h : ParserStep s t) (hb : BlockInv s) : BlockInv t :=
  ⟨h.keeps_legal hb.legal, h.filter ▸ hb.filter⟩

theorem blockInv_after_reset (s : State) (n : Nat) : BlockInv (abandonConsumer (resetRegisters n s)) :=
  ⟨legal_after_reset s n, rfl, nofun, nofun⟩

theorem exists_execDataReady {s : State} (hb : BlockInv s) :
    ∃ t, execDataReady s = .next t ∧ BlockInv t ∧ t.reading = s.reading ∧ t.pipe = s.pipe := by
  obtain ⟨u, hu⟩ := exists_pollFilter hb.legal
  have hpoll := polled_of_pollFilter hu
  refine ⟨u.emit (.dataReady u.F.ready), ?_, ?_, hpoll.reading_eq, hpoll.sameSchedule.pipe⟩
  · rw [execDataReady, hu, andThen_of_next]
  · exact (hpoll.keeps_blockInv hb).congr rfl rfl

/-- A READ-step leaves no byte pending, and one that finds a byte pending finishes (R56). -/
theorem exists_execRead {s : State} (hb : BlockInv s) :
    ∃ t, execRead s = .next t ∧ BlockInv t ∧ t.F.ready = false ∧ t.pipe = s.pipe ∧
      (s.F.ready = true → t.reading = false) := by
  obtain ⟨u, hu⟩ := exists_pollFilter hb.legal
  have hpoll := polled_of_pollFilter hu
  refine ⟨finishOrHold u, ?_, finishOrHold_keeps_blockInv (hpoll.keeps_blockInv hb), ?_, ?_, ?_⟩
  · rw [execRead, hu, andThen_of_next]
  · rw [finishOrHold_F]; rfl
  · rw [finishOrHold_pipe]; exact hpoll.sameSchedule.pipe
  · intro hr
    rw [hpoll.eq_of_ready hr, finishOrHold_reading, hr]; rfl

theorem exists_execConsume {s : State} (hb : BlockInv s) (b : Byte) :
    ∃ t, execConsume b s = .next t ∧ BlockInv t ∧ t.reading = s.reading ∧ t.pipe = s.pipe := by
  obtain ⟨i, t, -, heq, hrun⟩ := execConsume_takes hb.legal b
  have hstep : ParserStep s t := parserStep_of_execConsume (heq.trans hrun)
  exact ⟨t, heq.trans hrun, hstep.keeps_blockInv hb, hstep.reading, hstep.schedule.pipe⟩

/-! ## The whole invariant -/

theorem StepInv.block {s : State} (h : StepInv s) : BlockInv s :=
  ⟨h.legal, h.bufWf, h.stored, h.pendingInBand⟩

theorem BlockInv.stepInv {s : State} (h : BlockInv s) (hready : s.reading = true → s.F.ready = false)
    (hpipe : s.reading = true → s.pipe = .off) (hread : s.pipe = .read → s.F.ready = true) : StepInv s :=
  ⟨h.legal, h.filter.bufWf, h.filter.stored, h.filter.pendingInBand, hready, hpipe, hread⟩

/-- With no READ in progress the invariant asks of PIPE only that its READ has a byte. -/
theorem BlockInv.stepInv_of_notReading {s : State} (h : BlockInv s) (hr : s.reading = false)
    (hread : s.pipe = .read → s.F.ready = true) : StepInv s :=
  h.stepInv (by simp [hr]) (by simp [hr]) hread

theorem BlockInv.stepInv_withPipe {s : State} (h : BlockInv s) (hr : s.reading = false) {p : PipePhase}
    (hread : p = .read → s.F.ready = true) : StepInv (s.withPipe p) :=
  (h.congr rfl rfl : BlockInv (s.withPipe p)).stepInv_of_notReading hr hread

/-- The invariant reads neither the queue, the script, the interleaving nor the outputs. -/
theorem StepInv.congr {s t : State} (h : StepInv s) (hF : t.F = s.F) (hP : t.P = s.P)
    (hr : t.reading = s.reading) (hp : t.pipe = s.pipe) : StepInv t :=
  (h.block.congr hF hP).stepInv (hr ▸ hF ▸ h.readingNotReady) (hr ▸ hp ▸ h.readingNotPipe)
    (hp ▸ hF ▸ h.pipeReadReady)

/-- The result is a next state that meets the invariant. -/
def EndsWell (r : Result) : Prop := ∃ t, r = .next t ∧ StepInv t

/-- A READ-step outside PIPE, the first or a later one. -/
theorem execRead_endsWell {s : State} (hb : BlockInv s) (hp : s.pipe = .off) : EndsWell (execRead s) := by
  obtain ⟨t, ht, hbt, hready, hpipe, -⟩ := exists_execRead hb
  have hoff : t.pipe = .off := hpipe.trans hp
  exact ⟨t, ht, hbt.stepInv (fun _ => hready) (fun _ => hoff) (by simp [hoff])⟩

/-- PIPE's next step, in each of its phases: DATAREADY's answer decides whether READ comes next, and READ then
finishes, since a byte is pending (R79). -/
theorem pipeStep_endsWell {s : State} (hb : BlockInv s) (hr : s.reading = false)
    (hread : s.pipe = .read → s.F.ready = true) : EndsWell (pipeStep s) := by
  cases hp : s.pipe with
  | off => exact ⟨s, pipeStep_off hp, hb.stepInv_of_notReading hr hread⟩
  | test =>
    by_cases hdrained : s.queue = [] ∧ s.F.ready = false
    · exact ⟨_, pipeStep_done hp hdrained.1 hdrained.2, hb.stepInv_withPipe hr nofun⟩
    · obtain ⟨t, ht, hbt, hreading, -⟩ := exists_execDataReady hb
      rw [pipeStep_test hp (transportReady_or_ready_of_not_drained hdrained), ht, andThen_of_next]
      exact ⟨_, rfl, hbt.stepInv_withPipe (hreading.trans hr) (by simp)⟩
  | read =>
    obtain ⟨t, ht, hbt, -, -, hfinished⟩ := exists_execRead hb
    have hreading : t.reading = false := hfinished (hread hp)
    rw [pipeStep_read hp, ht, andThen_of_next]
    exact ⟨_, rfl, hbt.stepInv_withPipe hreading (by simp [hreading])⟩
  | consume b =>
    obtain ⟨t, ht, hbt, hreading, -⟩ := exists_execConsume hb b
    rw [pipeStep_consume hp, ht, andThen_of_next]
    exact ⟨_, rfl, hbt.stepInv_withPipe (hreading.trans hr) nofun⟩

/-- The next step of an operation in progress. -/
theorem continueOperation_endsWell {s : State} (h : StepInv s) : EndsWell (continueOperation s) := by
  by_cases hp : s.pipe = .off
  · rw [continueOperation_read hp]
    exact execRead_endsWell h.block hp
  · have hr : s.reading = false := Bool.eq_false_of_not_eq_true (mt h.readingNotPipe hp)
    rw [continueOperation_pipe hp]
    exact pipeStep_endsWell h.block hr h.pipeReadReady

theorem issue_dr (s : State) : issue .dr s = exec .dataReady s := issue_of_decode rfl rfl s

theorem issue_rd (s : State) : issue .rd s = exec .read s := issue_of_decode rfl rfl s

theorem issue_cb (b : Byte) (s : State) : issue (.cb b) s = exec (.consume b) s := issue_of_decode rfl rfl s

theorem issue_ic (s : State) : issue .ic s = exec .isConnected s := issue_of_decode rfl rfl s

/-- A step of the transport or the host, at any point. -/
theorem issue_outside_endsWell {s : State} {e : ProgramStep} (h : StepInv s) (he : isOutside e = true) :
    EndsWell (issue e s) := by
  obtain rfl | ⟨b, rfl⟩ := (isOutside_eq_true_iff e).1 he
  · exact ⟨_, issue_rst s, (blockInv_after_reset s _).stepInv_of_notReading rfl nofun⟩
  · exact ⟨_, issue_tx b s, h.congr rfl rfl rfl rfl⟩

/-- With nothing in progress every program step begins. -/
theorem issue_endsWell {s : State} (h : StepInv s) (hr : s.reading = false) (hp : s.pipe = .off)
    (e : ProgramStep) : EndsWell (issue e s) := by
  have idle {t : State} (hb : BlockInv t) (htr : t.reading = s.reading) (htp : t.pipe = s.pipe) : StepInv t :=
    hb.stepInv_of_notReading (htr.trans hr) (by simp [htp.trans hp])
  cases e with
  | rst => exact issue_outside_endsWell h rfl
  | tx b => exact issue_outside_endsWell h rfl
  | dr =>
    obtain ⟨t, ht, hbt, htr, htp⟩ := exists_execDataReady h.block
    exact ⟨t, (issue_dr s).trans ht, idle hbt htr htp⟩
  | rd =>
    rw [issue_rd]
    exact execRead_endsWell h.block hp
  | cb b =>
    obtain ⟨t, ht, hbt, htr, htp⟩ := exists_execConsume h.block b
    exact ⟨t, (issue_cb b s).trans ht, idle hbt htr htp⟩
  | ic => exact ⟨_, (issue_ic s).trans (checked_of_legal h.legal _), h.congr rfl rfl rfl rfl⟩
  | pipe =>
    rw [issue_pipe]
    exact pipeStep_endsWell (s := s.withPipe .test) (h.block.congr rfl rfl) hr nofun

/-- An operation in progress and a program step: whichever of them moves. -/
theorem advanceBusy_endsWell {s : State} (h : StepInv s) (e : ProgramStep) (rest : List ProgramStep) :
    EndsWell (advanceBusy e rest s) := by
  have ignores {sc : List ProgramStep} {il : List Bool} : StepInv ((s.withScript sc).withInterleave il) :=
    h.congr rfl rfl rfl rfl
  unfold advanceBusy
  split
  case isTrue he =>
    split
    · exact issue_outside_endsWell (h.congr rfl rfl rfl rfl) he
    · split
      · exact issue_outside_endsWell ignores he
      · exact continueOperation_endsWell (h.congr rfl rfl rfl rfl)
  case isFalse => exact continueOperation_endsWell h

theorem advance_endsWell {s : State} (h : StepInv s) : EndsWell (advance s) := by
  cases hbusy : consumerBusy s with
  | true =>
    simp only [advance, hbusy, if_true]
    cases s.script with
    | nil => exact continueOperation_endsWell h
    | cons e rest => exact advanceBusy_endsWell h e rest
  | false =>
    obtain ⟨hr, hp⟩ := (consumerBusy_eq_false_iff s).1 hbusy
    cases hs : s.script with
    | nil => exact ⟨s, advance_nothing hbusy hs, h⟩
    | cons e rest =>
      have htaken : StepInv (s.withScript rest) := h.congr rfl rfl rfl rfl
      rw [advance_issue hbusy hs]
      exact issue_endsWell htaken hr hp e

/-! ## The obligations of 10_state.md -/

/-- Settles O50: the outputs of the step before are no part of the invariant, and `advance_endsWell` covers
every way the step's mover is chosen. -/
theorem everyStepKeepsTheInvariant : Obligations.EveryStepKeepsTheInvariant := by
  intro s h
  exact advance_endsWell (h.congr rfl rfl rfl rfl : StepInv s.clearOut)

/-- Settles O22, by what each instruction can do: only F.CLOSE among the filter's rows touches the flag, alone,
inside FEED, or inside a poll that takes the closing sentinel. -/
theorem onlyUpdateChangesTheFlag : Obligations.OnlyUpdateChangesTheFlag := by
  intro i s t h hne
  have polled {u : State} (hp : Polled s u) (hu : u.connected ≠ s.connected) :
      s.F.buffering = true ∧ s.queue.head? = some Config.sent :=
    hp.connected_eq_or_closes.resolve_left hu
  cases exec_effect h with
  | reset => exact .inl rfl
  | update m => exact .inr (.inl ⟨m, rfl⟩)
  | isConnected => exact absurd rfl hne
  | consume b hstep => exact absurd hstep.connected hne
  | parserRow _ hstep => exact absurd hstep.connected hne
  | dataReady hp =>
    obtain ⟨hb, hq⟩ := polled hp hne
    exact .inr (.inr ⟨hb, .inr (.inr ⟨.inl rfl, hq⟩)⟩)
  | read hp =>
    obtain ⟨hb, hq⟩ := polled hp (by simpa using hne)
    exact .inr (.inr ⟨hb, .inr (.inr ⟨.inr rfl, hq⟩)⟩)
  | feed hstep =>
    obtain ⟨hb, -, rfl⟩ := hstep.connected_eq_or_closes.resolve_left hne
    exact .inr (.inr ⟨hb, .inr (.inl rfl)⟩)
  | filterRow hstep =>
    obtain ⟨hb, rfl, -⟩ := hstep.connected_eq_or_closes.resolve_left hne
    exact .inr (.inr ⟨hb, .inl rfl⟩)

/-- Settles O48: an instruction other than RESET answers only from a legal state, and each effect keeps it so. -/
theorem everyInstructionKeepsLegal : Obligations.EveryInstructionKeepsLegal := by
  intro i s t h
  exact (exec_effect h).legal fun hi => legal_of_exec hi h

/-- Settles O49: every instruction but RESET begins with the check of R25. -/
theorem brokenStatesFault : Obligations.BrokenStatesFault := by
  intro i s hl hi
  obtain ⟨k, hk⟩ := exec_eq_checked hi s
  rw [hk]
  exact checked_of_not_legal hl k

/-- Settles O46: the registers by evaluation, and the invariant, which an empty buffer with no message begun,
nothing pending and nothing in progress meets. -/
theorem powerUpState : Obligations.PowerUpState :=
  have hlegal : Legal State.reset := (brokenInvariant_eq_none_iff _).1 rfl
  have hblock : BlockInv State.reset := ⟨hlegal, reset_memory_wf, nofun, nofun⟩
  ⟨rfl, rfl, rfl, rfl, rfl, hblock.stepInv_of_notReading rfl nofun⟩

end Sys2Proof.Machine
end

section
/-! SUPPORT. The status buffer and the units' separation: reading a buffer index after each named operation,
who stores in the buffer, and what an instruction leaves to the other units; the statements of 20_memory.md. -/

namespace Sys2Proof.Machine

/-! ## Reading an index -/

/-- An index reads as the stored bytes and the RESET count say, and no other field matters (R26, log 4). -/
theorem bufByte_congr {s t : State} (hbuf : t.F.buf = s.F.buf) (hepoch : t.epoch = s.epoch) (a : Nat) :
    bufByte t a = bufByte s a := by
  rw [bufByte, bufByte, hbuf, hepoch]

theorem bufByte_insert_same (s : State) (i : Nat) (v : Byte) :
    bufByte (s.withF (s.F.withBuf (Memory.insert s.F.buf i v))) i = v := by
  simp [bufByte, Memory.lookup_insert]

theorem bufByte_insert_of_ne (s : State) {i j : Nat} (v : Byte) (h : j ≠ i) :
    bufByte (s.withF (s.F.withBuf (Memory.insert s.F.buf i v))) j = bufByte s j := by
  simp [bufByte, Memory.lookup_insert, h]

theorem memRead_past {s : State} {i : Nat} (h : Config.statusCap < i) : memRead s i = .error .bufferIndex :=
  if_neg h.not_ge

theorem memWrite_past {s : State} {i : Nat} (v : Byte) (h : Config.statusCap < i) :
    memWrite s i v = .fault .bufferIndex :=
  if_neg h.not_ge

theorem bufByte_appendByte_of_ne {s : State} {a : Nat} (b : Byte) (h : a ≠ s.F.cursor.toNat) :
    bufByte (appendByte b s) a = bufByte s a :=
  bufByte_insert_of_ne s b h

theorem bufByte_endMessage_of_ne {s : State} {a : Nat} (h : a ≠ s.F.cursor.toNat) :
    bufByte (endMessage s) a = bufByte s a :=
  bufByte_insert_of_ne s 0x00#8 h

/-! ## What an instruction leaves of the script, PIPE and the RESET count -/

theorem SameSchedule.trans {s t u : State} (h : SameSchedule s t) (h' : SameSchedule t u) : SameSchedule s u :=
  ⟨h'.pipe.trans h.pipe, h'.script.trans h.script, h'.interleave.trans h.interleave, h'.epoch.trans h.epoch⟩

theorem emit_sameSchedule (s : State) (o : Output) : SameSchedule s (s.emit o) := ⟨rfl, rfl, rfl, rfl⟩

theorem update_sameSchedule (m : List Byte) (s : State) : SameSchedule s (update m s) := ⟨rfl, rfl, rfl, rfl⟩

theorem finishOrHold_sameSchedule (s : State) : SameSchedule s (finishOrHold s) := by
  cases h : s.F.ready with
  | true => rw [finishOrHold_ready h]; exact ⟨rfl, rfl, rfl, rfl⟩
  | false => rw [finishOrHold_hold h]; exact ⟨rfl, rfl, rfl, rfl⟩

theorem Effect.sameSchedule {s t : State} {i : Instr} (h : Effect s i t) (hi : i ≠ .reset) :
    SameSchedule s t := by
  cases h with
  | reset => exact absurd rfl hi
  | dataReady hp => exact hp.sameSchedule.trans (emit_sameSchedule _ _)
  | read hp => exact hp.sameSchedule.trans (finishOrHold_sameSchedule _)
  | isConnected => exact emit_sameSchedule _ _
  | update m => exact update_sameSchedule m s
  | feed hstep | filterRow hstep => exact hstep.sameSchedule
  | consume _ hstep | parserRow _ hstep => exact hstep.schedule

/-! ## What the filter leaves to the parser and the transport -/

/-- A row of the filter works on the byte it is given and takes none from the queue (R50 to R54). -/
theorem FilterStep.queue_eq {s t : State} {b : Byte} {i : Instr} (h : FilterStep s b i t) :
    t.queue = s.queue := by
  cases h <;> rfl

theorem Polled.parser_eq {s t : State} (h : Polled s t) : t.P = s.P := by
  cases h with
  | idle => rfl
  | fed _ _ hstep => exact hstep.parser_eq

/-! ## Who stores in the buffer -/

/-- The forms that may store in the status buffer: APPEND and CLOSE, and what runs them (R27). -/
inductive MayStore : Instr → Prop where
  | fClose : MayStore .fClose
  | fAppend (b : Byte) : MayStore (.fAppend b)
  | feed (b : Byte) : MayStore (.feed b)
  | dataReady : MayStore .dataReady
  | read : MayStore .read

/-- A row of the filter changes an index only by storing at the cursor of an open message. -/
theorem FilterStep.bufByte_eq_or_stores {s t : State} {b : Byte} {i : Instr} (h : FilterStep s b i t) (a : Nat) :
    bufByte t a = bufByte s a ∨ a = s.F.cursor.toNat ∧ s.F.buffering = true ∧ MayStore i := by
  by_cases ha : a = s.F.cursor.toNat
  · cases h with
    | opens | inBand | drops => exact .inl rfl
    | closes hb => exact .inr ⟨ha, hb, .fClose⟩
    | appends b hb => exact .inr ⟨ha, hb, .fAppend b⟩
  · cases h with
    | opens | inBand | drops => exact .inl rfl
    | closes => exact .inl (bufByte_endMessage_of_ne ha)
    | appends b => exact .inl (bufByte_appendByte_of_ne b ha)

/-- A poll takes its byte from the queue first, which no index reads. -/
theorem Polled.bufByte_eq_or_stores {s t : State} (h : Polled s t) (a : Nat) :
    bufByte t a = bufByte s a ∨ a = s.F.cursor.toNat ∧ s.F.buffering = true := by
  cases h with
  | idle => exact .inl rfl
  | fed _ _ hstep =>
    obtain hsame | ⟨ha, hb, -⟩ := hstep.bufByte_eq_or_stores a
    · exact .inl hsame
    · exact .inr ⟨ha, hb⟩

theorem bufByte_finishOrHold (s : State) (a : Nat) : bufByte (finishOrHold s) a = bufByte s a :=
  bufByte_congr (by rw [finishOrHold_F]; rfl) (finishOrHold_sameSchedule s).epoch a

/-- An instruction other than RESET changes an index only by storing at the cursor of an open message. -/
theorem Effect.bufByte_eq_or_stores {s t : State} {i : Instr} (h : Effect s i t) (hi : i ≠ .reset) (a : Nat) :
    bufByte t a = bufByte s a ∨ a = s.F.cursor.toNat ∧ s.F.buffering = true ∧ MayStore i := by
  have polled {u : State} (hp : Polled s u) (hm : MayStore i) :
      bufByte u a = bufByte s a ∨ a = s.F.cursor.toNat ∧ s.F.buffering = true ∧ MayStore i :=
    (hp.bufByte_eq_or_stores a).imp_right fun ⟨ha, hb⟩ => ⟨ha, hb, hm⟩
  cases h with
  | reset => exact absurd rfl hi
  | dataReady hp => exact (polled hp .dataReady :)
  | read hp =>
    rw [bufByte_finishOrHold]
    exact polled hp .read
  | isConnected | update => exact .inl rfl
  | feed hstep =>
    exact (hstep.bufByte_eq_or_stores a).imp_right fun ⟨ha, hb, _⟩ => ⟨ha, hb, .feed _⟩
  | filterRow hstep => exact hstep.bufByte_eq_or_stores a
  | consume _ hstep | parserRow _ hstep =>
    exact .inl (bufByte_congr (congrArg FilterRegs.buf hstep.filter) hstep.schedule.epoch a)

/-! ## The obligations of 20_memory.md -/

/-- Settles O10: read after write within the buffer, and the model's stop past it. -/
theorem bufferReadAfterWrite : Obligations.BufferReadAfterWrite := by
  intro s i v
  refine ⟨fun hi => ?_, fun hi => ⟨memWrite_past v hi, memRead_past hi⟩⟩
  refine ⟨_, memWrite_ok v hi, ?_, fun j hj => bufByte_insert_of_ne s v hj⟩
  rw [memRead_ok hi, bufByte_insert_same]

/-- Settles O42, by what each instruction can do: a row of the filter or of the parser stays within its unit, a
poll is at most one row of the filter, and the flag's operations touch the flag and the outputs only. -/
theorem unitsLeaveEachOtherAlone : Obligations.UnitsLeaveEachOtherAlone := by
  intro i s t h hi
  have heffect := exec_effect h
  refine ⟨heffect.sameSchedule hi, ?_⟩
  cases heffect with
  | reset => trivial
  | dataReady hp => exact hp.parser_eq
  | read hp => exact (finishOrHold_P _).trans hp.parser_eq
  | isConnected | update => exact ⟨rfl, rfl, rfl, rfl⟩
  | feed hstep => exact ⟨hstep.parser_eq, hstep.queue_eq, hstep.reading_eq⟩
  | filterRow hstep =>
    have hframe : t.P = s.P ∧ t.queue = s.queue ∧ t.reading = s.reading :=
      ⟨hstep.parser_eq, hstep.queue_eq, hstep.reading_eq⟩
    cases hstep <;> exact hframe
  | consume _ hstep => exact ⟨hstep.filter, hstep.connected, hstep.queue, hstep.reading⟩
  | parserRow hrow hstep =>
    cases hrow <;> exact ⟨hstep.filter, hstep.connected, hstep.queue, hstep.reading⟩

/-- Settles O43: a changed index is the cursor's, with a message open and a form that may store
(`Effect.bufByte_eq_or_stores`); each clause denies one of these. -/
theorem bufferIsStoredOnlyAtTheCursor : Obligations.BufferIsStoredOnlyAtTheCursor := by
  intro i s t h hi
  have hstore := (exec_effect h).bufByte_eq_or_stores hi
  refine ⟨fun a ha => (hstore a).resolve_right fun ⟨hat, _⟩ => ha hat, fun hno a => ?_⟩
  refine (hstore a).resolve_right fun ⟨_, hopen, hform⟩ => ?_
  obtain hclosed | ⟨hclose, happend, hfeed, hpoll, hread⟩ := hno
  · simp [hclosed] at hopen
  · cases hform with
    | fClose => exact hclose rfl
    | fAppend b => exact happend b rfl
    | feed b => exact hfeed b rfl
    | dataReady => exact hpoll rfl
    | read => exact hread rfl

end Sys2Proof.Machine
end

section
/-! SUPPORT. The encoding tables: which one row of R37 and of R38 takes a byte, and so what a symbol decodes to;
the statements of 30_encoding.md about decoding. -/

namespace Sys2Proof

/-! ## What a byte pattern accepts -/

@[simp] theorem BytePattern.accepts_only (v b : Byte) :
    (BytePattern.mk 0xFF#8 v true).accepts b = (b == v) := by
  simp [BytePattern.accepts, Laws.and_full_mask]

@[simp] theorem BytePattern.accepts_allBut (v b : Byte) :
    (BytePattern.mk 0xFF#8 v false).accepts b = (b != v) := by
  simp [BytePattern.accepts, Laws.and_full_mask, bne]

@[simp] theorem BytePattern.accepts_every (b : Byte) : (BytePattern.mk 0x00#8 0x00#8 true).accepts b = true := by
  simp [BytePattern.accepts]

/-! ## The filter's table (R37) -/

@[simp] theorem CursorCondition.holds_any (c : Cursor) : CursorCondition.any.holds c = true := rfl

@[simp] theorem CursorCondition.holds_belowCap (c : Cursor) :
    CursorCondition.belowCap.holds c = decide (c.toNat < Config.statusCap) := rfl

@[simp] theorem CursorCondition.holds_fromCap (c : Cursor) :
    CursorCondition.fromCap.holds c = decide (Config.statusCap ≤ c.toNat) := rfl

/-- The case R37 gives a byte. -/
def filterCase (buffering : Bool) (cursor : Cursor) (b : Byte) : Instr :=
  if buffering = false then (if b = Config.sent then .fOpen else .fInband b)
  else if b = Config.sent then .fClose
  else if cursor.toNat < Config.statusCap then .fAppend b else .fDrop b

/-- The five rows of R37 overlap nowhere and leave no byte out. -/
theorem filterRows_select (buffering : Bool) (cursor : Cursor) (b : Byte) :
    ∃ r, filterRows.filter (fun r => r.accepts buffering cursor b) = [r] ∧
      r.make b = filterCase buffering cursor b := by
  cases buffering with
  | false => by_cases hs : b = Config.sent <;> simp [filterRows, FilterRow.accepts, filterCase, hs]
  | true =>
    by_cases hs : b = Config.sent
    · simp [filterRows, FilterRow.accepts, filterCase, hs]
    · obtain hc | hc := Nat.lt_or_ge cursor.toNat Config.statusCap
      · simp [filterRows, FilterRow.accepts, filterCase, hs, hc]
      · simp [filterRows, FilterRow.accepts, filterCase, hs, hc, hc.not_gt]

theorem decode_filterByte (buffering : Bool) (cursor : Cursor) (b : Byte) :
    decode (.filterByte buffering cursor b) = .ok (filterCase buffering cursor b) := by
  obtain ⟨r, hrows, hmake⟩ := filterRows_select buffering cursor b
  rw [decode, ← List.head?_filter, hrows, ← hmake]
  rfl

/-! ## The parser's table (R38) -/

/-- The case R38 gives a byte. -/
def parserCase (p : ParserState) (b : Byte) : Instr :=
  match p with
  | .idle => if b = Config.frameOpen then .pIdleOpen else .pIdleIgnore b
  | .sequenceNumber => .pSeq b
  | .packetId => .pId b
  | .payloadSize0 => .pSize0 b
  | .payloadSize1 => .pSize1 b
  | .payload0 => .pPay0 b
  | .payload1 => .pPay1 b

/-- The eight rows of R38 overlap nowhere and leave no byte of a legal state out. -/
theorem parserRows_select (p : ParserState) (b : Byte) :
    ∃ r, parserRows.filter (fun r => r.accepts p.code b) = [r] ∧ r.make b = parserCase p b := by
  cases p with
  | idle =>
    by_cases ho : b = Config.frameOpen <;>
      simp [parserRows, ParserRow.accepts, ParserState.code, parserCase, ho]
  | sequenceNumber | packetId | payloadSize0 | payloadSize1 | payload0 | payload1 =>
    simp [parserRows, ParserRow.accepts, ParserState.code, parserCase]

theorem decode_parserByte (p : ParserState) (b : Byte) :
    decode (.parserByte p.code b) = .ok (parserCase p b) := by
  obtain ⟨r, hrows, hmake⟩ := parserRows_select p b
  rw [decode, ← List.head?_filter, hrows, ← hmake]
  rfl

/-! ## The obligations of 30_encoding.md about decoding -/

/-- Settles O1, by the constructors of `Instr`: the round trip of each row of the table is a lemma of its own. -/
theorem decodeEncodeRoundTrip : Obligations.DecodeEncodeRoundTrip := by
  intro i
  cases i with
  | reset => exact Laws.RoundTrip.reset
  | dataReady => exact Laws.RoundTrip.dataReady
  | read => exact Laws.RoundTrip.read
  | isConnected => exact Laws.RoundTrip.isConnected
  | feed b => exact Laws.RoundTrip.feed b
  | fOpen => exact Laws.RoundTrip.fOpen
  | fInband b => exact Laws.RoundTrip.fInband b
  | fClose => exact Laws.RoundTrip.fClose
  | fAppend b => exact Laws.RoundTrip.fAppend b
  | fDrop b => exact Laws.RoundTrip.fDrop b
  | cUpdate m => exact Laws.RoundTrip.cUpdate m
  | consume b => exact Laws.RoundTrip.consume b
  | pIdleOpen => exact Laws.RoundTrip.pIdleOpen
  | pIdleIgnore b => exact Laws.RoundTrip.pIdleIgnore b
  | pSeq b => exact Laws.RoundTrip.pSeq b
  | pId b => exact Laws.RoundTrip.pId b
  | pSize0 b => exact Laws.RoundTrip.pSize0 b
  | pSize1 b => exact Laws.RoundTrip.pSize1 b
  | pPay0 b => exact Laws.RoundTrip.pPay0 b
  | pPay1 b => exact Laws.RoundTrip.pPay1 b

/-- Settles O3: the rows that accept are one row, and its instruction is R37's case. -/
theorem exactlyOneFilterCase : Obligations.ExactlyOneFilterCase := by
  intro buffering cursor b
  obtain ⟨r, hrows, -⟩ := filterRows_select buffering cursor b
  exact ⟨congrArg List.length hrows, decode_filterByte buffering cursor b⟩

/-- Settles O4: the rows that accept are one row, and its instruction is R38's case. -/
theorem exactlyOneParserCase : Obligations.ExactlyOneParserCase := by
  intro p b
  obtain ⟨r, hrows, -⟩ := parserRows_select p b
  refine ⟨congrArg List.length hrows, (decode_parserByte p b).trans ?_⟩
  cases p <;> rfl

/-- Settles O2: each symbol is the case its table gives it, P.state 7 matches no row of R38, and a request goes by
the number of its inputs. -/
theorem tableWordsDecode : Obligations.TableWordsDecode := by
  refine ⟨decode_filterByte false 0#7 0x25#8, decode_filterByte false 5#7 0x5B#8,
    decode_filterByte true 11#7 0x25#8, decode_filterByte true 78#7 0x41#8, decode_filterByte true 79#7 0x4E#8,
    decode_parserByte .idle 0x5B#8, decode_parserByte .idle 0x5D#8, decode_parserByte .packetId 0x25#8,
    decode_parserByte .payload1 0x62#8, ?illegalState, ?consume, ?wrongInputs⟩
  case illegalState => rfl
  case consume => rfl
  case wrongInputs => rfl

end Sys2Proof
end

section
/-! SUPPORT. Hex digits: HexNib by the kind of its byte, and the value of two digits; the statements of
30_encoding.md R39 to R42. -/

namespace Sys2Proof.Machine

/-! ## HexNib -/

/-- The digit test of R39, inclusive and on the raw byte. -/
abbrev IsDecimalDigit (b : Byte) : Prop := 0x30 ≤ b.toNat ∧ b.toNat ≤ 0x39

theorem hexNib_of_digit {b : Byte} (h : IsDecimalDigit b) : hexNib b = b - 0x30#8 := if_pos h

theorem hexNib_of_not_digit {b : Byte} (h : ¬ IsDecimalDigit b) : hexNib b = (b &&& 0x5F#8) + 0xC9#8 := by
  rw [hexNib, if_neg h]
  bv_omega

/-- Without bits 5 and 7 a byte is in 0x00..0x1F or in 0x40..0x5F. -/
theorem letterMask_range (b : Byte) :
    (b &&& 0x5F#8).toNat < 0x20 ∨ 0x40 ≤ (b &&& 0x5F#8).toNat ∧ (b &&& 0x5F#8).toNat ≤ 0x5F := by
  have hle : (b &&& 0x5F#8).toNat ≤ 0x5F := Nat.and_le_right
  have hbit : (b &&& 0x5F#8).toNat.testBit 5 = false := by
    simp [Nat.testBit_and, show Nat.testBit 0x5F 5 = false from rfl]
  rw [Nat.testBit_eq_decide_div_mod_eq, decide_eq_false_iff_not] at hbit
  omega

theorem not_isDecimalDigit_letterMask (b : Byte) : ¬ IsDecimalDigit (b &&& 0x5F#8) := by
  have := letterMask_range b
  rw [IsDecimalDigit]
  omega

theorem hexNib_letterMask {b : Byte} (h : ¬ IsDecimalDigit b) : hexNib b = hexNib (b &&& 0x5F#8) := by
  rw [hexNib_of_not_digit h, hexNib_of_not_digit (not_isDecimalDigit_letterMask b), BitVec.and_assoc,
    BitVec.and_self]

/-- R40 (c): of a byte that is no digit, HexNib is under 16 where the formula does not wrap below 0. -/
theorem hexNib_lt_iff {b : Byte} (h : ¬ IsDecimalDigit b) :
    (hexNib b).toNat < 16 ↔ 0x40 ≤ (b &&& 0x5F#8).toNat ∧ (b &&& 0x5F#8).toNat ≤ 0x46 := by
  have hrange := letterMask_range b
  rw [hexNib_of_not_digit h, BitVec.toNat_add]
  simp only [BitVec.toNat_ofNat]
  omega

/-! ## The hex digits -/

theorem not_isDecimalDigit_of_not_isHexDigit {b : Byte} (h : isHexDigit b = false) : ¬ IsDecimalDigit b := by
  intro hd
  simp [isHexDigit, hd] at h

theorem hexNib_decimal (n : Fin 10) : hexNib (BitVec.ofNat 8 (0x30 + n)) = BitVec.ofNat 8 n := by
  revert n; decide

theorem hexNib_letters (n : Fin 6) :
    hexNib (BitVec.ofNat 8 (0x41 + n)) = BitVec.ofNat 8 (10 + n) ∧
      hexNib (BitVec.ofNat 8 (0x61 + n)) = BitVec.ofNat 8 (10 + n) := by
  revert n; decide

/-- The hex digits are the ten digits and the six letters of each case. -/
theorem hexDigit_cases {b : Byte} (h : isHexDigit b = true) :
    (∃ n : Fin 10, b = BitVec.ofNat 8 (0x30 + n)) ∨
      ∃ n : Fin 6, b = BitVec.ofNat 8 (0x41 + n) ∨ b = BitVec.ofNat 8 (0x61 + n) := by
  have offset (lo : Nat) (hlo : lo ≤ b.toNat) : b = BitVec.ofNat 8 (lo + (b.toNat - lo)) := by
    rw [Nat.add_sub_cancel' hlo, BitVec.ofNat_toNat, BitVec.setWidth_eq]
  simp only [isHexDigit, Bool.or_eq_true, decide_eq_true_eq] at h
  obtain (⟨hlo, hhi⟩ | ⟨hlo, hhi⟩) | ⟨hlo, hhi⟩ := h
  · exact .inl ⟨⟨b.toNat - 0x30, by omega⟩, offset 0x30 hlo⟩
  · exact .inr ⟨⟨b.toNat - 0x41, by omega⟩, .inl (offset 0x41 hlo)⟩
  · exact .inr ⟨⟨b.toNat - 0x61, by omega⟩, .inr (offset 0x61 hlo)⟩

theorem hexNib_lt_of_isHexDigit {b : Byte} (h : isHexDigit b = true) : (hexNib b).toNat < 16 := by
  obtain ⟨n, rfl⟩ | ⟨n, rfl | rfl⟩ := hexDigit_cases h
  · rw [hexNib_decimal, BitVec.toNat_ofNat]; omega
  · rw [(hexNib_letters n).1, BitVec.toNat_ofNat]; omega
  · rw [(hexNib_letters n).2, BitVec.toNat_ofNat]; omega

/-! ## Two digits -/

/-- R41, R42: the shift loses what leaves the 8 bits, the low digit is ORed in whole. -/
theorem digitPair_eq_trunc8 (d1 d2 : Byte) :
    withLowDigit (highDigit d1) d2 = trunc8 (((hexNib d1).toNat <<< 4) ||| (hexNib d2).toNat) := by
  rw [withLowDigit, highDigit, trunc8, trunc8, BitVec.ofNat_or, BitVec.ofNat_toNat, BitVec.setWidth_eq]

/-- Two values under 16 stand side by side in a byte. -/
theorem digitPair_toNat_of_lt {d1 d2 : Byte} (h1 : (hexNib d1).toNat < 16) (h2 : (hexNib d2).toNat < 16) :
    (withLowDigit (highDigit d1) d2).toNat = 16 * (hexNib d1).toNat + (hexNib d2).toNat := by
  rw [digitPair_eq_trunc8, ← Nat.shiftLeft_add_eq_or_of_lt (i := 4) h2, Nat.shiftLeft_eq, trunc8,
    BitVec.toNat_ofNat]
  omega

/-! ## The obligations of 30_encoding.md about digits -/

/-- Settles O5, by the digit test. -/
theorem hexNibFormula : Obligations.HexNibFormula := by
  intro b
  split
  next h => exact hexNib_of_digit h
  next h => exact hexNib_of_not_digit h

/-- Settles O6: R40 (a) is computed digit by digit, (b) and (c) follow from what bits a letter keeps. -/
theorem hexNibProperties : Obligations.HexNibProperties :=
  ⟨hexNib_decimal, hexNib_letters, fun _ => hexNib_letterMask,
    fun _ h => hexNib_lt_iff (not_isDecimalDigit_of_not_isHexDigit h)⟩

/-- Settles O7: for hex digits both HexNib values are under 16, so nothing is truncated. -/
theorem digitPairIsTruncated : Obligations.DigitPairIsTruncated := by
  intro d1 d2
  refine ⟨digitPair_eq_trunc8 d1 d2, ?length, fun h1 h2 => ?hexDigits⟩
  case length => rw [lenOf_eq, lenWithLowDigit_eq_withLowDigit]
  case hexDigits => exact digitPair_toNat_of_lt (hexNib_lt_of_isHexDigit h1) (hexNib_lt_of_isHexDigit h2)

end Sys2Proof.Machine
end

section
/-! SUPPORT. Rows outside their case, a whole status message through DATAREADY, and a placed table byte: the
statements of 30_encoding.md about instructions that run. -/

namespace Sys2Proof.Machine

/-! ## A row outside its case (log 6) -/

theorem whenSelected_refuses {s : State} (hl : Legal s) {c : Bool} (hc : c = false) (m : String) (k : Result) :
    whenSelected m s c k = .refused (.notSelected m) := by
  rw [whenSelected_of_legal hl, hc]
  rfl

theorem parserIn_eq_false {s : State} {p : ParserState} (h : s.P.state ≠ p.code) : parserIn s p = false :=
  beq_false_of_ne h

/-- Settles O44: in each clause the row's own test of its case fails. -/
theorem rowsAreRefusedOutsideTheirCase : Obligations.RowsAreRefusedOutsideTheirCase := by
  intro s b hl
  refine ⟨?feed, ?fOpen, ?fInband, ?fClose, ?fAppend, ?fDrop, ?pIdleOpen, ?pIdleIgnore, ?pSeq, ?pId, ?pSize0,
    ?pSize1, ?pPay0, ?pPay1⟩
  case feed => exact fun hr => whenSelected_refuses hl (by simp [hr]) _ _
  case fOpen =>
    rintro (hr | hb)
    · exact whenSelected_refuses hl (by simp [hr]) _ _
    · exact whenSelected_refuses hl (by simp [hb]) _ _
  case fInband =>
    rintro (hr | hb | rfl)
    · exact whenSelected_refuses hl (by simp [hr]) _ _
    · exact whenSelected_refuses hl (by simp [hb]) _ _
    · exact whenSelected_refuses hl (by simp) _ _
  case fClose => exact fun hb => whenSelected_refuses hl hb _ _
  case fAppend =>
    rintro (hb | rfl | hc)
    · exact whenSelected_refuses hl (by simp [hb]) _ _
    · exact whenSelected_refuses hl (by simp) _ _
    · exact whenSelected_refuses hl (by simp [hc.not_gt]) _ _
  case fDrop =>
    rintro (hb | rfl | hc)
    · exact whenSelected_refuses hl (by simp [hb]) _ _
    · exact whenSelected_refuses hl (by simp) _ _
    · exact whenSelected_refuses hl (by simp [hc.not_ge]) _ _
  case pIdleOpen => exact fun hp => whenSelected_refuses hl (parserIn_eq_false hp) _ _
  case pIdleIgnore =>
    rintro (hp | rfl)
    · exact whenSelected_refuses hl (by simp [parserIn_eq_false (p := .idle) hp]) _ _
    · exact whenSelected_refuses hl (by simp) _ _
  case pSeq => exact fun hp => whenSelected_refuses hl (parserIn_eq_false hp) _ _
  case pId => exact fun hp => whenSelected_refuses hl (parserIn_eq_false hp) _ _
  case pSize0 => exact fun hp => whenSelected_refuses hl (parserIn_eq_false hp) _ _
  case pSize1 => exact fun hp => whenSelected_refuses hl (parserIn_eq_false hp) _ _
  case pPay0 => exact fun hp => whenSelected_refuses hl (parserIn_eq_false hp) _ _
  case pPay1 => exact fun hp => whenSelected_refuses hl (parserIn_eq_false hp) _ _

/-! ## DATAREADY with a byte in the transport (R55) -/

/-- FEED runs the row that takes its byte (R49). -/
theorem FilterStep.execFeed_eq {s t : State} {b : Byte} {i : Instr} (hl : Legal s) (hr : s.F.ready = false)
    (h : FilterStep s b i t) : execFeed b s = .next t := by
  rw [← h.exec_eq hl, execFeed_of_legal hl hr]
  cases h with
  | opens _ hb => simp [hb, exec]
  | inBand _ _ hb hne => simp [hb, hne, exec]
  | closes hb => simp [hb, exec]
  | appends _ hb hne hc => simp [hb, hne, hc, exec]
  | drops _ hb hne hc => simp [hb, hne, hc.not_gt, exec]

/-- DATAREADY takes the byte by the row the filter takes it by, and answers `F.ready` as it then stands. -/
theorem dataReady_of_filterStep {s t : State} {b : Byte} {rest : List Byte} {i : Instr} (hl : Legal s)
    (hr : s.F.ready = false) (hq : s.queue = b :: rest) (h : FilterStep (s.withQueue rest) b i t) :
    exec .dataReady s = .next (t.emit (.dataReady t.F.ready)) := by
  have hpoll : pollFilter s = .next t :=
    (pollFilter_feed hl hr hq).trans (h.execFeed_eq (hl.congr rfl rfl) hr)
  rw [exec, execDataReady, hpoll, andThen_of_next]

/-! ## The message stored so far (R27) -/

/-- The bytes of the open message, `F.buf[0 .. F.cursor-1]`. -/
def storedBytes (s : State) : List Byte := (List.range s.F.cursor.toNat).map (bufByte s)

@[simp] theorem storedBytes_length (s : State) : (storedBytes s).length = s.F.cursor.toNat := by
  simp [storedBytes]

theorem storedBytes_appendByte {s : State} (b : Byte) (hc : s.F.cursor.toNat < Config.statusCap) :
    storedBytes (appendByte b s) = storedBytes s ++ [b] := by
  have hcursor : (appendByte b s).F.cursor.toNat = s.F.cursor.toNat + 1 := cursor_succ_toNat hc
  have hlast : bufByte (appendByte b s) s.F.cursor.toNat = b := bufByte_insert_same s _ b
  have hbefore : (List.range s.F.cursor.toNat).map (bufByte (appendByte b s)) = storedBytes s :=
    List.map_congr_left fun a ha => bufByte_appendByte_of_ne b (List.mem_range.1 ha).ne
  rw [storedBytes, hcursor, List.range_succ, List.map_append, hbefore, List.map_singleton, hlast]

/-- The terminator is written behind the message, so UPDATE is handed the bytes stored (R54). -/
theorem endMessage_eq (s : State) :
    endMessage s = update (storedBytes s) ((terminate s).withF ((terminate s).F.withBuffering false)) := by
  have hstored : (List.range s.F.cursor.toNat).map (bufByte (terminate s)) = storedBytes s :=
    List.map_congr_left fun a ha => bufByte_insert_of_ne s 0x00#8 (List.mem_range.1 ha).ne
  rw [endMessage, hstored]

/-- A byte of an open message is stored while fewer than 79 are (R52, R53). -/
theorem FilterStep.storedBytes_eq {s t : State} {b : Byte} {i : Instr} (h : FilterStep s b i t) (hl : Legal s)
    (hb : s.F.buffering = true) (hne : b ≠ Config.sent) :
    storedBytes t = (storedBytes s ++ [b]).take Config.statusCap := by
  cases h with
  | opens _ hb' | inBand _ _ hb' => simp [hb] at hb'
  | closes => exact absurd rfl hne
  | appends _ _ _ hc => rw [storedBytes_appendByte b hc, List.take_of_length_le (by simpa using hc)]
  | drops _ _ _ hc =>
    have hfull : (storedBytes s).length = Config.statusCap :=
      (storedBytes_length s).trans (Nat.le_antisymm (hl.cursorInBuffer hb) hc)
    rw [List.take_left' hfull]

/-- A byte of an open message moves only the cursor and the buffer (R52, R53). -/
theorem FilterStep.frame_of_open {s t : State} {b : Byte} {i : Instr} (h : FilterStep s b i t)
    (hb : s.F.buffering = true) (hne : b ≠ Config.sent) :
    t = { s with F := { s.F with cursor := t.F.cursor, buf := t.F.buf } } := by
  cases h with
  | opens _ hb' | inBand _ _ hb' => simp [hb] at hb'
  | closes => exact absurd rfl hne
  | appends | drops => rfl

/-! ## The bytes of an open message through DATAREADY (R46, R58) -/

/-- From `s` with a message open, as many DATAREADYs as `m` has bytes take `m` from the transport, leaving `rest`
there, and reach `t`: each answers 0, only the filter's cursor and buffer move, and the message holds the first 79
of its bytes. -/
structure Absorbed (s : State) (m rest : List Byte) (t : State) : Prop where
  run : execAll (List.replicate m.length .dataReady) s = .next t
  legal : Legal t
  stored : storedBytes t = (storedBytes s ++ m).take Config.statusCap
  frame : t = { s with
    queue := rest
    out := s.out ++ List.replicate m.length (.dataReady false)
    F := { s.F with cursor := t.F.cursor, buf := t.F.buf } }

section Frame

variable {s t : State} {m rest : List Byte} (h : Absorbed s m rest t)
include h

theorem Absorbed.buffering : t.F.buffering = s.F.buffering := congrArg (·.F.buffering) h.frame

theorem Absorbed.ready : t.F.ready = s.F.ready := congrArg (·.F.ready) h.frame

theorem Absorbed.peek : t.F.peek = s.F.peek := congrArg (·.F.peek) h.frame

theorem Absorbed.connected : t.connected = s.connected := congrArg (·.connected) h.frame

theorem Absorbed.P : t.P = s.P := congrArg (·.P) h.frame

theorem Absorbed.queue : t.queue = rest := congrArg (·.queue) h.frame

theorem Absorbed.out : t.out = s.out ++ List.replicate m.length (.dataReady false) := congrArg (·.out) h.frame

theorem Absorbed.cursor : t.F.cursor.toNat = min (s.F.cursor.toNat + m.length) Config.statusCap := by
  rw [← storedBytes_length, h.stored, List.length_take, List.length_append, storedBytes_length, Nat.min_comm]

end Frame

theorem execAll_append (l l' : List Instr) (s : State) :
    execAll (l ++ l') s = andThen (execAll l s) (execAll l') := by
  induction l generalizing s with
  | nil => rfl
  | cons i l ih =>
    simp only [List.cons_append, execAll]
    cases exec i s with
    | next t => exact ih t
    | fault f => rfl
    | refused e => rfl

theorem execAll_singleton (i : Instr) (s : State) : execAll [i] s = exec i s := andThen_next _

theorem absorbed_nil {s : State} (hl : Legal s) (hb : s.F.buffering = true) : Absorbed s [] s.queue s where
  run := rfl
  legal := hl
  stored := by
    rw [List.append_nil, List.take_of_length_le]
    exact (storedBytes_length s).le.trans (hl.cursorInBuffer hb)
  frame := by simp

/-- One byte of an open message through DATAREADY. -/
theorem exists_absorbed_singleton {s : State} {b : Byte} {rest : List Byte} (hl : Legal s)
    (hb : s.F.buffering = true) (hq : s.queue = b :: rest) (hne : b ≠ Config.sent) :
    ∃ t, Absorbed s [b] rest t := by
  have hr : s.F.ready = false := Bool.eq_false_iff.2 fun hr => by simp [hl.readyNotBuffering hr] at hb
  have hl' : Legal (s.withQueue rest) := hl.congr rfl rfl
  obtain ⟨i, t, hstep, -⟩ := execFeed_takes hl' hr b
  have hframe := hstep.frame_of_open hb hne
  have hready : t.F.ready = false := (congrArg (·.F.ready) hframe).trans hr
  refine ⟨t.emit (.dataReady false), ?run, ?legal, ?stored, ?frame⟩
  case run => exact (execAll_singleton _ _).trans (hready ▸ dataReady_of_filterStep hl hr hq hstep)
  case legal => exact (hstep.keeps_legal hl').congr rfl rfl
  case stored => exact hstep.storedBytes_eq hl' hb hne
  case frame => exact congrArg (State.emit · (.dataReady false)) hframe

/-- What stands behind a list cut at `n` is cut there too. -/
theorem take_take_append {α : Type} (n : Nat) (l l' : List α) :
    (l.take n ++ l').take n = (l ++ l').take n := by
  obtain h | h := Nat.le_total l.length n
  · rw [List.take_of_length_le h]
  · rw [List.take_append_of_le_length h, List.take_left' (List.length_take_of_le h)]

theorem Absorbed.trans {s t u : State} {m m' rest rest' : List Byte} (h : Absorbed s m rest t)
    (h' : Absorbed t m' rest' u) : Absorbed s (m ++ m') rest' u where
  run := by
    rw [List.length_append, ← List.replicate_append_replicate, execAll_append, h.run, andThen_of_next, h'.run]
  legal := h'.legal
  stored := by
    rw [h'.stored, h.stored, take_take_append, List.append_assoc]
  frame := by
    rw [h'.frame, h.frame]
    simp [← List.replicate_append_replicate]

theorem exists_absorbed {s : State} {m rest : List Byte} (hl : Legal s) (hb : s.F.buffering = true)
    (hq : s.queue = m ++ rest) (hm : Config.sent ∉ m) : ∃ t, Absorbed s m rest t := by
  induction m generalizing s with
  | nil => exact ⟨s, by simpa [hq] using absorbed_nil hl hb⟩
  | cons b m ih =>
    obtain ⟨hne, hm⟩ := not_or.1 (mt List.mem_cons.2 hm)
    obtain ⟨t, ht⟩ := exists_absorbed_singleton hl hb hq (Ne.symm hne)
    obtain ⟨u, hu⟩ := ih ht.legal (ht.buffering.trans hb) ht.queue hm
    exact ⟨u, ht.trans hu⟩

/-! ## A whole status message (R46, R54, R58) -/

/-- What DATAREADY leaves of an opening sentinel (R50, R55). -/
def opened (rest : List Byte) (s : State) : State :=
  ((s.withQueue rest).withF ((s.F.withBuffering true).withCursor 0#7)).emit (.dataReady false)

/-- What DATAREADY leaves of a closing sentinel (R54, R55). -/
def closed (rest : List Byte) (s : State) : State := (endMessage (s.withQueue rest)).emit (.dataReady false)

theorem dataReady_opens {s : State} {rest : List Byte} (hl : Legal s) (hr : s.F.ready = false)
    (hb : s.F.buffering = false) (hq : s.queue = Config.sent :: rest) :
    exec .dataReady s = .next (opened rest s) := by
  rw [dataReady_of_filterStep hl hr hq (.opens hr hb)]
  simp [opened, hr]

theorem dataReady_closes {s : State} {rest : List Byte} (hl : Legal s) (hr : s.F.ready = false)
    (hb : s.F.buffering = true) (hq : s.queue = Config.sent :: rest) :
    exec .dataReady s = .next (closed rest s) := by
  have hready : (endMessage (s.withQueue rest)).F.ready = false := hr
  rw [dataReady_of_filterStep hl hr hq (.closes hb), hready, closed]

theorem legal_opened {s : State} (rest : List Byte) (hl : Legal s) (hr : s.F.ready = false) :
    Legal (opened rest s) :=
  hl.of_filter rfl (by simp [opened, hr]) (by simp [opened])

theorem closed_connected (s : State) (rest : List Byte) :
    (closed rest s).connected = connectedBy (cString (storedBytes s)) s.connected := by
  rw [closed, endMessage_eq]
  rfl

theorem closed_out (s : State) (rest : List Byte) :
    (closed rest s).out = s.out ++ [.message (cString (storedBytes s)), .dataReady false] := by
  rw [closed, endMessage_eq]
  exact List.append_assoc _ _ _

/-- Settles O28: the opening sentinel, the message's bytes (`exists_absorbed`), and the closing sentinel. -/
theorem statusMessageIsAbsorbed : Obligations.StatusMessageIsAbsorbed := by
  intro s m rest hl hr hb hq hm
  obtain ⟨u, hu⟩ : ∃ u, Absorbed (opened (m ++ 0x25#8 :: rest) s) m (0x25#8 :: rest) u :=
    exists_absorbed (legal_opened _ hl hr) rfl rfl hm
  have hready : u.F.ready = false := hu.ready.trans hr
  have hstored : storedBytes u = m.take 79 := hu.stored
  have hconnected : u.connected = s.connected := hu.connected
  have hout : u.out = s.out ++ List.replicate (m.length + 1) (.dataReady false) := by
    rw [hu.out, List.replicate_succ]
    exact List.append_assoc _ _ _
  have hcursor : u.F.cursor.toNat = min m.length 79 := hu.cursor.trans (by simp [opened])
  refine ⟨closed rest u, ?run, rfl, hready, rfl, hu.peek, hcursor, hu.P, ?connected, ?out⟩
  case run =>
    have hcalls : List.replicate (m.length + 2) Instr.dataReady =
        .dataReady :: (List.replicate m.length .dataReady ++ [.dataReady]) := by
      rw [List.replicate_succ, List.replicate_succ']
    rw [hcalls, execAll, dataReady_opens hl hr hb hq, andThen_of_next, execAll_append, hu.run, andThen_of_next,
      execAll_singleton, dataReady_closes hu.legal hready hu.buffering hu.queue]
  case connected => rw [closed_connected, hstored, hconnected]
  case out => rw [closed_out, hstored, hout]

/-! ## A placed table byte (log 12) -/

/-- CONSUME runs the row its byte decodes to, and that row answers (R38, R66). -/
theorem execConsume_runs_parserCase {s : State} (hl : Legal s) {p : ParserState} (hp : s.P.state = p.code)
    (b : Byte) : ∃ t, execConsume b s = .next t ∧ exec (parserCase p b) s = .next t := by
  obtain ⟨i, t, -, heq, ht⟩ := execConsume_takes hl b
  have ht : execConsume b s = .next t := heq.trans ht
  refine ⟨t, ht, ?_⟩
  rw [← ht, execConsume_of_state hl p hp]
  cases p with
  | idle => by_cases ho : b = Config.frameOpen <;> simp [parserCase, ho, exec]
  | sequenceNumber | packetId | payloadSize0 | payloadSize1 | payload0 | payload1 => rfl

theorem placeByte_sentinel (s : State) :
    placeByte Config.sent s = { s with
      reading := false, pipe := .off, queue := Config.sent :: s.queue, script := .dr :: s.script
      F := { s.F with buffering := false, ready := false } } := rfl

theorem placeByte_of_ne {b : Byte} (h : b ≠ Config.sent) (s : State) :
    placeByte b s = { s with
      reading := false, pipe := .off, script := .cb b :: s.script, P := { s.P with state := 0#3 } } :=
  if_neg h

theorem decodeTableWord_of_decode {w : Nat} {i : Instr} (h : decode (tableSymbol (BitVec.ofNat 8 w)) = .ok i) :
    decodeTableWord 8 w = some i := by
  simp [decodeTableWord, tableByte?, h]

/-- The state of the next step, once the placed request is taken from the script. -/
def placed (b : Byte) (s : State) : State := (placeByte b s).clearOut.withScript s.script

theorem placed_of_ne {b : Byte} (h : b ≠ Config.sent) (s : State) :
    placed b s = { s with out := [], reading := false, pipe := .off, P := { s.P with state := 0#3 } } := by
  rw [placed, placeByte_of_ne h]
  rfl

theorem step_placeByte_sentinel (s : State) :
    step (placeByte Config.sent s) = exec .dataReady (placed Config.sent s) :=
  (step_issue rfl rfl rfl).trans (issue_dr _)

theorem step_placeByte_of_ne {b : Byte} (h : b ≠ Config.sent) (s : State) :
    step (placeByte b s) = exec (.consume b) (placed b s) := by
  rw [placed, placeByte_of_ne h]
  exact (step_issue rfl rfl rfl).trans (issue_cb b _)

theorem legal_placed_sentinel {s : State} (hl : Legal s) : Legal (placed Config.sent s) :=
  hl.of_filter rfl nofun nofun

theorem legal_placed_of_ne {b : Byte} {s : State} (hl : Legal s) (h : b ≠ Config.sent) : Legal (placed b s) := by
  rw [placed_of_ne h]
  exact ⟨hl.readyNotBuffering, hl.cursorInBuffer, Nat.zero_le _, nofun⟩

/-- A placed sentinel opens a message inside DATAREADY. -/
theorem placed_sentinel_runs {s : State} (hl : Legal s) :
    ∃ t, exec .fOpen ((placed Config.sent s).withQueue s.queue) = .next t ∧
      step (placeByte Config.sent s) = .next (t.emit (.dataReady t.F.ready)) := by
  have hlegal := legal_placed_sentinel hl
  have hopens := FilterStep.opens (s := (placed Config.sent s).withQueue s.queue) rfl rfl
  refine ⟨_, hopens.exec_eq (hlegal.congr rfl rfl), ?_⟩
  exact (step_placeByte_sentinel s).trans (dataReady_of_filterStep hlegal rfl rfl hopens)

/-- Any other placed byte is parsed in IDLE, by CONSUME. -/
theorem placed_byte_runs {s : State} {b : Byte} (hl : Legal s) (h : b ≠ Config.sent) :
    ∃ t, exec (parserCase .idle b) (placed b s) = .next t ∧ step (placeByte b s) = .next t := by
  have hidle : (placed b s).P.state = ParserState.idle.code := by rw [placed_of_ne h]; rfl
  obtain ⟨t, hconsume, hrow⟩ := execConsume_runs_parserCase (legal_placed_of_ne hl h) hidle b
  exact ⟨t, hrow, (step_placeByte_of_ne h s).trans hconsume⟩

theorem decode_tableSymbol_of_ne {b : Byte} (h : b ≠ Config.sent) :
    decode (tableSymbol b) = .ok (parserCase .idle b) := by
  rw [tableSymbol, if_neg h, decode_parserByte]

/-- Settles O60: the placed request is the next step, DATAREADY for the sentinel and CONSUME for any other byte,
and from the state placed it runs the row that the byte decodes to. -/
theorem placedTableByteRunsNext : Obligations.PlacedTableByteRunsNext := by
  intro s w hl b
  have hplaced : s.withFetchWord 8 w = placeByte b s := rfl
  have hdecode : ∀ {i}, decode (tableSymbol b) = .ok i → decodeTableWord 8 w = some i :=
    decodeTableWord_of_decode
  rw [hplaced]
  clear_value b
  intro u
  refine ⟨?sentinel, fun hne => ?otherByte⟩
  case sentinel =>
    rintro rfl
    exact ⟨rfl, hdecode (decode_filterByte false 0#7 Config.sent), placed_sentinel_runs hl⟩
  case otherByte =>
    exact ⟨placed_of_ne hne s, _, (placed_byte_runs hl hne).imp fun t ⟨hrow, hstep⟩ =>
      ⟨hdecode (decode_tableSymbol_of_ne hne), hrow, hstep⟩⟩

end Sys2Proof.Machine
end

section
/-! SUPPORT. The filter's rows in the words of their rules, DATAREADY and READ through what a poll does, and what a
step hands to the consumer: the statements of 40_status_filter.md. -/

namespace Sys2Proof.Machine

/-! ## The rows (R49 to R54) -/

/-- The row that takes a byte is R37's case for it. -/
theorem FilterStep.eq_filterCase {s t : State} {b : Byte} {i : Instr} (h : FilterStep s b i t) :
    i = filterCase s.F.buffering s.F.cursor b := by
  cases h with
  | opens _ hb => simp [filterCase, hb]
  | inBand _ _ hb hne => simp [filterCase, hb, hne]
  | closes hb => simp [filterCase, hb]
  | appends _ hb hne hc => simp [filterCase, hb, hne, hc]
  | drops _ hb hne hc => simp [filterCase, hb, hne, hc.not_gt]

theorem bufByte_appendByte_cursor (s : State) (b : Byte) :
    bufByte (appendByte b s) s.F.cursor.toNat = b :=
  bufByte_insert_same s _ b

theorem bufByte_endMessage_cursor (s : State) : bufByte (endMessage s) s.F.cursor.toNat = 0x00#8 :=
  bufByte_insert_same s _ 0x00#8

/-- The filter's part of F.CLOSE done, the rest of it is UPDATE on the bytes stored (R54). -/
theorem update_storedBytes (s : State) :
    update (storedBytes s) (s.withF (endMessage s).F) = endMessage s := by
  rw [endMessage_eq]
  rfl

/-- A byte taken while a message is open leaves `F.ready` as it is, whether it closes the message or not. -/
theorem FilterStep.ready_of_open {s t : State} {b : Byte} {i : Instr} (h : FilterStep s b i t)
    (hb : s.F.buffering = true) : t.F.ready = s.F.ready := by
  cases h with
  | opens _ hb' | inBand _ _ hb' => simp [hb] at hb'
  | closes | appends | drops => rfl

/-- Settles O13: F.APPEND leaves `appendByte`, which stores at the cursor and moves it within its 7 bits. -/
theorem appendStoresTheByte : Obligations.AppendStoresTheByte := by
  intro s b hl hb hne hc
  exact ⟨appendByte b s, execFAppend_of_selected hl hb hne hc, cursor_succ_toNat hc,
    bufByte_appendByte_cursor s b, fun _ hi => bufByte_appendByte_of_ne b hi, rfl⟩

/-- Settles O15: what F.CLOSE leaves is what UPDATE leaves on the bytes stored, with the filter's part done. -/
theorem closeCompletesTheMessage : Obligations.CloseCompletesTheMessage := by
  intro s hl hb m
  have hclose : exec .fClose s = .next (endMessage s) := execFClose_of_selected hl hb
  have hlegal : Legal (s.withF (endMessage s).F) := ((FilterStep.closes hb).keeps_legal hl).congr rfl rfl
  have hupdate : exec (.cUpdate m) (s.withF (endMessage s).F) = .next (endMessage s) :=
    (checked_of_legal hlegal _).trans (congrArg _ (update_storedBytes s))
  have hrest : endMessage s = update m (s.withF (endMessage s).F) := (update_storedBytes s).symm
  exact ⟨_, _, hclose, hupdate, rfl, rfl, bufByte_endMessage_cursor s, fun _ => bufByte_endMessage_of_ne,
    congrArg (·.connected) hrest, congrArg (·.out) hrest, rfl⟩

/-- Settles O16: the row that takes the byte is the one it decodes to, and its frame is that of any row. -/
theorem feedRunsTheDecodedCase : Obligations.FeedRunsTheDecodedCase := by
  intro s b hl hr
  obtain ⟨i, t, hstep, hfeed⟩ := execFeed_takes hl hr b
  have hdecode : decode (.filterByte s.F.buffering s.F.cursor b) = .ok i := by
    rw [decode_filterByte, hstep.eq_filterCase]
  exact ⟨i, t, hdecode, hfeed, hstep.exec_eq hl, hstep.parser_eq, hstep.queue_eq, hstep.reading_eq,
    hstep.sameSchedule⟩

/-- Settles O11, by the row's rule `FilterStep.opens`. -/
theorem openStartsAMessage : Obligations.OpenStartsAMessage :=
  fun _ hl hr hb => (FilterStep.opens hr hb).exec_eq hl

/-- Settles O12, by the row's rule `FilterStep.inBand`. -/
theorem inbandExposesTheByte : Obligations.InbandExposesTheByte :=
  fun _ b hl hr hb hne => (FilterStep.inBand b hr hb hne).exec_eq hl

/-- Settles O14, by the row's rule `FilterStep.drops`. -/
theorem dropChangesNothing : Obligations.DropChangesNothing :=
  fun _ b hl hb hne hc => (FilterStep.drops b hb hne hc).exec_eq hl

/-! ## DATAREADY and READ, by what the poll does (R55, R56) -/

theorem exists_polled {s : State} (hl : Legal s) : ∃ t, Polled s t :=
  (exists_pollFilter hl).imp fun _ => polled_of_pollFilter

section Poll

variable {s t : State} (h : Polled s t) (hl : Legal s)
include h hl

theorem Polled.pollFilter_eq : pollFilter s = .next t := by
  cases h with
  | idle hidle => exact pollFilter_idle hl hidle
  | fed hr hq hstep => exact (pollFilter_feed hl hr hq).trans (hstep.execFeed_eq (hl.congr rfl rfl) hr)

theorem Polled.dataReady_eq : exec .dataReady s = .next (t.emit (.dataReady t.F.ready)) := by
  rw [exec, execDataReady, h.pollFilter_eq hl, andThen_of_next]

theorem Polled.read_eq : exec .read s = .next (finishOrHold t) := by
  rw [exec, execRead, h.pollFilter_eq hl, andThen_of_next]

end Poll

/-- While a message is open no poll makes a byte pending (R57 (a)). -/
theorem Polled.ready_of_open {s t : State} (h : Polled s t) (hr : s.F.ready = false)
    (hb : s.F.buffering = true) : t.F.ready = false := by
  cases h with
  | idle => exact hr
  | fed _ _ hstep => exact (hstep.ready_of_open hb).trans hr

theorem Legal.not_ready_of_buffering {s : State} (hl : Legal s) (hb : s.F.buffering = true) :
    s.F.ready = false :=
  Bool.eq_false_iff.2 fun hr => by simp [hl.readyNotBuffering hr] at hb

/-- Settles O23: the poll is idle in the first two cases, and feeds one byte in the third. -/
theorem dataReadyTakesAtMostOneByte : Obligations.DataReadyTakesAtMostOneByte := by
  intro s hl
  refine ⟨fun hr => ?pending, fun hr hq => ?empty, fun hr b rest hq => ?takes⟩
  case pending =>
    rw [(Polled.idle (.inl hr)).dataReady_eq hl, hr]
    rfl
  case empty =>
    rw [(Polled.idle (.inr hq)).dataReady_eq hl, hr]
    rfl
  case takes =>
    obtain ⟨i, t, hstep, hfeed⟩ := execFeed_takes (hl.congr rfl rfl : Legal (s.withQueue rest)) hr b
    exact ⟨t, hfeed, (Polled.fed hr hq hstep).dataReady_eq hl⟩

/-- Settles O24: the same poll as DATAREADY's, and then the two ends of a READ-step. -/
theorem readFinishesOrHolds : Obligations.ReadFinishesOrHolds := by
  intro s hl
  have ends {t : State} (hpoll : Polled s t) :
      (t.F.ready = true → exec .read s = .next { t with
        F := { t.F with ready := false }, reading := false, out := t.out ++ [.read t.F.peek] }) ∧
      (t.F.ready = false → exec .read s = .next { t with reading := true }) := by
    rw [hpoll.read_eq hl]
    exact ⟨fun hr => congrArg _ (finishOrHold_ready hr), fun hr => congrArg _ (finishOrHold_hold hr)⟩
  refine ⟨fun hr => (ends (.idle (.inl hr))).1 hr, fun hr hq => (ends (.idle (.inr hq))).2 hr,
    fun hr b rest hq => ?takes⟩
  obtain ⟨i, t, hstep, hfeed⟩ := execFeed_takes (hl.congr rfl rfl : Legal (s.withQueue rest)) hr b
  exact ⟨t, hfeed, ends (.fed hr hq hstep)⟩

/-! ## The bytes READ returned, among the outputs -/

@[simp] theorem readBytes_append (l l' : List Output) : readBytes (l ++ l') = readBytes l ++ readBytes l' := by
  induction l with
  | nil => rfl
  | cons o l ih => cases o <;> simp [readBytes, ih]

theorem mem_readBytes {b : Byte} {l : List Output} : b ∈ readBytes l ↔ .read b ∈ l := by
  induction l with
  | nil => simp [readBytes]
  | cons o l ih => cases o <;> simp [readBytes, ih]

/-- The in-band byte that waits for the consumer, if one does (R16, R17). -/
def pendingBytes (s : State) : List Byte := if s.F.ready then [s.F.peek] else []

theorem FilterStep.readBytes_out {s t : State} {b : Byte} {i : Instr} (h : FilterStep s b i t) :
    readBytes t.out = readBytes s.out := by
  cases h with
  | opens | inBand | appends | drops => rfl
  | closes => exact (readBytes_append _ _).trans (List.append_nil _)

theorem Polled.readBytes_out {s t : State} (h : Polled s t) : readBytes t.out = readBytes s.out := by
  cases h with
  | idle => rfl
  | fed _ _ hstep => exact hstep.readBytes_out

/-- READ returns the pending byte, and nothing if none is (R56). -/
theorem readBytes_finishOrHold (s : State) :
    readBytes (finishOrHold s).out = readBytes s.out ++ pendingBytes s := by
  cases hr : s.F.ready with
  | true => simp [finishOrHold_ready hr, pendingBytes, hr, readBytes]
  | false => simp [finishOrHold_hold hr, pendingBytes, hr]

/-- Settles O25: no byte becomes pending, so DATAREADY answers 0 and READ holds. -/
theorem nothingPendingWhileBuffering : Obligations.NothingPendingWhileBuffering := by
  intro s hl hb
  obtain ⟨u, hpoll⟩ := exists_polled hl
  have hready : u.F.ready = false := hpoll.ready_of_open (hl.not_ready_of_buffering hb) hb
  refine ⟨⟨_, u.out, hpoll.dataReady_eq hl, hready, ?answer⟩, ⟨_, hpoll.read_eq hl, ?holds, ?returns⟩⟩
  case answer => rw [hready]; rfl
  case holds => rw [finishOrHold_hold hready]; rfl
  case returns => rw [finishOrHold_hold hready]; exact hpoll.readBytes_out

/-! ## Who hands a byte to the consumer -/

theorem readBytes_out_of_parserRow {i : Instr} (hi : IsParserRow i) {s t : State} (h : exec i s = .next t) :
    readBytes t.out = readBytes s.out := by
  cases hi with
  | pPay1 b =>
    obtain ⟨-, -, ht⟩ := whenSelected_eq_next h
    cases ht
    exact (readBytes_append _ _).trans (List.append_nil _)
  | pIdleOpen | pIdleIgnore | pSeq | pId | pSize0 | pSize1 | pPay0 =>
    obtain ⟨-, -, ht⟩ := whenSelected_eq_next h
    cases ht
    rfl

theorem readBytes_out_of_execConsume {s t : State} {b : Byte} (h : execConsume b s = .next t) :
    readBytes t.out = readBytes s.out := by
  obtain ⟨i, -, hrow, heq, -⟩ := execConsume_takes (checked_eq_next h).1 b
  exact readBytes_out_of_parserRow hrow (heq ▸ h)

/-- Of all instructions only READ returns a byte of the stream (R36). -/
theorem readBytes_out_of_ne_read {i : Instr} (hi : i ≠ .read) {s t : State} (h : exec i s = .next t) :
    readBytes t.out = readBytes s.out := by
  cases exec_effect h with
  | reset => rfl
  | read => exact absurd rfl hi
  | dataReady hp => simp [hp.readBytes_out, readBytes]
  | isConnected | update => simp [readBytes]
  | feed hstep | filterRow hstep => exact hstep.readBytes_out
  | consume b => exact readBytes_out_of_execConsume h
  | parserRow hrow => exact readBytes_out_of_parserRow hrow h

theorem FilterInv.sent_not_mem_pendingBytes {s : State} (h : FilterInv s.F) : Config.sent ∉ pendingBytes s := by
  cases hr : s.F.ready with
  | true => simpa [pendingBytes, hr] using (h.pendingInBand hr).symm
  | false => simp [pendingBytes, hr]

/-- No instruction hands over a sentinel (R57 (b)): READ returns what is pending after the poll, which is
in-band. -/
theorem sent_not_mem_readBytes_of_exec {i : Instr} {s t : State} (hb : BlockInv s) (hout : s.out = [])
    (h : exec i s = .next t) : Config.sent ∉ readBytes t.out := by
  have hnone : readBytes s.out = [] := by rw [hout]; rfl
  by_cases hi : i = .read
  · subst hi
    obtain ⟨u, hpoll⟩ := exists_polled hb.legal
    obtain rfl : finishOrHold u = t := by simpa [hpoll.read_eq hb.legal] using h
    rw [readBytes_finishOrHold, hpoll.readBytes_out, hnone]
    exact (hpoll.keeps_filterInv hb.legal hb.filter).sent_not_mem_pendingBytes
  · rw [readBytes_out_of_ne_read hi h, hnone]
    exact List.not_mem_nil

/-! ## What a step hands over -/

/-- What a step from `s` hands over: nothing, or the outputs of one instruction run on the registers of `s`. -/
inductive HandsOver (s : State) : List Output → Prop where
  | nothing : HandsOver s []
  | runs {x u : State} {i : Instr} (hF : x.F = s.F) (hP : x.P = s.P) (hout : x.out = [])
      (h : exec i x = .next u) : HandsOver s u.out

theorem HandsOver.congr {s x : State} {o : List Output} (h : HandsOver x o) (hF : x.F = s.F) (hP : x.P = s.P) :
    HandsOver s o := by
  cases h with
  | nothing => exact .nothing
  | runs hF' hP' hout h => exact .runs (hF'.trans hF) (hP'.trans hP) hout h

theorem HandsOver.of_silent {s t : State} (h : t.out = []) : HandsOver s t.out := h ▸ .nothing

theorem handsOver_of_exec {i : Instr} {s t : State} (hout : s.out = []) (h : exec i s = .next t) :
    HandsOver s t.out :=
  .runs rfl rfl hout h

/-- An instruction of PIPE hands over its own outputs: where PIPE then stands is no output. -/
theorem handsOver_of_exec_withPipe {i : Instr} {s t : State} {phase : State → PipePhase} (hout : s.out = [])
    (h : andThen (exec i s) (fun u => .next (u.withPipe (phase u))) = .next t) : HandsOver s t.out := by
  obtain ⟨u, hu, ht⟩ := andThen_eq_next.1 h
  cases ht
  exact (handsOver_of_exec hout hu :)

theorem handsOver_of_pipeStep {s t : State} (hout : s.out = []) (h : pipeStep s = .next t) :
    HandsOver s t.out := by
  cases hp : s.pipe with
  | off =>
    rw [pipeStep_off hp] at h
    cases h
    exact .of_silent hout
  | test =>
    by_cases hdrained : s.queue = [] ∧ s.F.ready = false
    · rw [pipeStep_done hp hdrained.1 hdrained.2] at h
      cases h
      exact .of_silent hout
    · rw [pipeStep_test hp (transportReady_or_ready_of_not_drained hdrained)] at h
      exact handsOver_of_exec_withPipe (i := .dataReady) hout h
  | read =>
    rw [pipeStep_read hp] at h
    exact handsOver_of_exec_withPipe (i := .read) hout h
  | consume b =>
    rw [pipeStep_consume hp] at h
    exact handsOver_of_exec_withPipe (i := .consume b) hout h

theorem handsOver_of_continueOperation {s t : State} (hout : s.out = []) (h : continueOperation s = .next t) :
    HandsOver s t.out := by
  by_cases hp : s.pipe = .off
  · rw [continueOperation_read hp] at h
    exact handsOver_of_exec (i := .read) hout h
  · rw [continueOperation_pipe hp] at h
    exact handsOver_of_pipeStep hout h

theorem handsOver_of_issue {e : ProgramStep} {s t : State} (hout : s.out = []) (h : issue e s = .next t) :
    HandsOver s t.out := by
  cases e with
  | tx b => cases h; exact .of_silent hout
  | pipe => exact (handsOver_of_pipeStep (s := s.withPipe .test) hout h).congr rfl rfl
  | rst => exact handsOver_of_exec hout (issue_rst s ▸ h)
  | dr => exact handsOver_of_exec hout (issue_dr s ▸ h)
  | rd => exact handsOver_of_exec hout (issue_rd s ▸ h)
  | cb b => exact handsOver_of_exec hout (issue_cb b s ▸ h)
  | ic => exact handsOver_of_exec hout (issue_ic s ▸ h)

theorem handsOver_of_advanceBusy {e : ProgramStep} {rest : List ProgramStep} {s t : State} (hout : s.out = [])
    (h : advanceBusy e rest s = .next t) : HandsOver s t.out := by
  unfold advanceBusy at h
  split at h
  case isTrue =>
    split at h
    · exact (handsOver_of_issue (s := s.withScript rest) hout h).congr rfl rfl
    · split at h
      · exact (handsOver_of_issue (s := (s.withScript rest).withInterleave s.interleave.tail) hout h).congr rfl rfl
      · exact (handsOver_of_continueOperation (s := s.withInterleave s.interleave.tail) hout h).congr rfl rfl
  case isFalse => exact handsOver_of_continueOperation hout h

/-- Whoever moves, a step hands over what at most one instruction does (R8). -/
theorem handsOver_of_step {s t : State} (h : step s = .next t) : HandsOver s t.out := by
  suffices HandsOver s.clearOut t.out from this.congr rfl rfl
  have hout : s.clearOut.out = [] := rfl
  cases hbusy : consumerBusy s.clearOut with
  | true =>
    simp only [step, advance, hbusy, if_true] at h
    split at h
    · exact handsOver_of_continueOperation hout h
    · exact handsOver_of_advanceBusy hout h
  | false =>
    cases hs : s.clearOut.script with
    | nil =>
      rw [step, advance_nothing hbusy hs] at h
      cases h
      exact .nothing
    | cons e rest =>
      rw [step, advance_issue hbusy hs] at h
      exact (handsOver_of_issue (s := s.clearOut.withScript rest) hout h).congr rfl rfl

/-- Settles O26: the step hands over what one instruction does, and none hands over a sentinel. -/
theorem sentinelNeverReachesTheConsumer : Obligations.SentinelNeverReachesTheConsumer := by
  intro s t hinv hstep
  rw [← mem_readBytes]
  have hover := handsOver_of_step hstep
  generalize t.out = o at hover
  cases hover with
  | nothing => exact List.not_mem_nil
  | runs hF hP hout h => exact sent_not_mem_readBytes_of_exec (hinv.block.congr hF hP) hout h

/-! ## A stream through READ (R57 (c), (e)) -/

/-- A row exposes its byte if the byte is in-band, and leaves the filter in the half of the stream that comes
next (R46). -/
theorem FilterStep.inBandBytes_cons {s t : State} {b : Byte} {i : Instr} (h : FilterStep s b i t)
    (hr : s.F.ready = false) (rest : List Byte) :
    inBandBytes s.F.buffering (b :: rest) = pendingBytes t ++ inBandBytes t.F.buffering rest := by
  cases h with
  | opens _ hb => simp [inBandBytes, pendingBytes, hb, hr]
  | inBand _ _ hb hne => simp [inBandBytes, pendingBytes, hb, hne]
  | closes hb => simp [inBandBytes, pendingBytes, endMessage, terminate, hb, hr]
  | appends _ hb hne => simp [inBandBytes, pendingBytes, appendByte, advanceCursor, hb, hne, hr]
  | drops _ hb hne => simp [inBandBytes, pendingBytes, hb, hne, hr]

theorem finishOrHold_queue (s : State) : (finishOrHold s).queue = s.queue := by
  cases h : s.F.ready with
  | true => rw [finishOrHold_ready h]; rfl
  | false => rw [finishOrHold_hold h]; rfl

/-- One READ-step takes one byte from the transport, and returns it exactly if it is in-band. -/
theorem exists_read_takes {s : State} {b : Byte} {rest : List Byte} (hl : Legal s) (hr : s.F.ready = false)
    (hq : s.queue = b :: rest) :
    ∃ t, exec .read s = .next t ∧ Legal t ∧ t.F.ready = false ∧ t.queue = rest ∧ t.P = s.P ∧
      readBytes t.out ++ inBandBytes t.F.buffering rest =
        readBytes s.out ++ inBandBytes s.F.buffering (b :: rest) := by
  obtain ⟨i, u, hstep, -⟩ := execFeed_takes (hl.congr rfl rfl : Legal (s.withQueue rest)) hr b
  have hpoll : Polled s u := .fed hr hq hstep
  refine ⟨finishOrHold u, hpoll.read_eq hl, finishOrHold_keeps_legal (hpoll.keeps_legal hl), ?ready,
    (finishOrHold_queue u).trans hstep.queue_eq, (finishOrHold_P u).trans hpoll.parser_eq, ?bytes⟩
  case ready => rw [finishOrHold_F]; rfl
  case bytes =>
    have hbuffering : (finishOrHold u).F.buffering = u.F.buffering := by rw [finishOrHold_F]; rfl
    have hcons : inBandBytes s.F.buffering (b :: rest) = pendingBytes u ++ inBandBytes u.F.buffering rest :=
      hstep.inBandBytes_cons hr rest
    rw [readBytes_finishOrHold, hpoll.readBytes_out, hbuffering, hcons, List.append_assoc]

/-- Settles O27, by induction on the transport's bytes: one READ-step each. -/
theorem readsDeliverInBandBytesInOrder : Obligations.ReadsDeliverInBandBytesInOrder := by
  intro s hl hr
  generalize hq : s.queue = q
  induction q generalizing s with
  | nil => exact ⟨s, rfl, by simp [inBandBytes], hq, hr, rfl⟩
  | cons b rest ih =>
    obtain ⟨u, hread, hlu, hru, hqu, hPu, hbytes⟩ := exists_read_takes hl hr hq
    obtain ⟨t, hrun, hbytes', hqt, hrt, hPt⟩ := ih u hlu hru hqu
    refine ⟨t, ?_, hbytes'.trans hbytes, hqt, hrt, hPt.trans hPu⟩
    rw [List.length_cons, List.replicate_succ, execAll, hread, andThen_of_next, hrun]

/-! ## Polling for more than one byte (R55 (c)) -/

/-- The state with its outputs replaced. -/
def withOut (o : List Output) (s : State) : State := { s with out := o }

/-- The filter's rows read no output: with other outputs before, the same row leaves the same state but for
them. -/
theorem FilterStep.exists_withOut {s t : State} {b : Byte} {i : Instr} (h : FilterStep s b i t)
    (o : List Output) : ∃ o', FilterStep (withOut o s) b i (withOut o' t) := by
  cases h with
  | opens hr hb => exact ⟨o, .opens hr hb⟩
  | inBand b hr hb hne => exact ⟨o, .inBand b hr hb hne⟩
  | closes hb => exact ⟨(endMessage (withOut o s)).out, .closes hb⟩
  | appends b hb hne hc => exact ⟨o, .appends b hb hne hc⟩
  | drops b hb hne hc => exact ⟨o, .drops b hb hne hc⟩

theorem Polled.exists_withOut {s t : State} (h : Polled s t) (o : List Output) :
    ∃ o', Polled (withOut o s) (withOut o' t) := by
  cases h with
  | idle hidle => exact ⟨o, .idle hidle⟩
  | fed hr hq hstep =>
    obtain ⟨o', hstep'⟩ := hstep.exists_withOut o
    exact ⟨o', .fed hr hq hstep'⟩

/-- One byte more of a poll is one DATAREADY more, but for its outputs. -/
theorem exists_feedUpTo_and_dataReadys (n : Nat) {s : State} (hl : Legal s) :
    ∃ t o, feedUpTo n s = .next t ∧ execAll (List.replicate n .dataReady) s = .next (withOut o t) ∧
      Legal t := by
  induction n with
  | zero => exact ⟨s, s.out, rfl, rfl, hl⟩
  | succ n ih =>
    obtain ⟨t, o, hfeed, hrun, hlt⟩ := ih
    obtain ⟨t', hpoll⟩ := exists_polled hlt
    obtain ⟨o', hpoll'⟩ := hpoll.exists_withOut o
    have hone : feedUpTo 1 t = .next t' := (checked_of_legal hlt _).symm.trans (hpoll.pollFilter_eq hlt)
    refine ⟨t', o' ++ [.dataReady t'.F.ready], ?feed, ?run, hpoll.keeps_legal hlt⟩
    case feed => rw [feedUpTo_add, hfeed, andThen_of_next, hone]
    case run =>
      rw [List.replicate_succ', execAll_append, hrun, andThen_of_next, execAll_singleton]
      exact hpoll'.dataReady_eq (hlt.congr rfl rfl)

/-- Settles O59: the two runs end in one state but for its outputs (`exists_feedUpTo_and_dataReadys`). -/
theorem pollingMoreIsCallingDataReadyMore : Obligations.PollingMoreIsCallingDataReadyMore := by
  intro n s hl
  obtain ⟨t, o, hfeed, hrun, -⟩ := exists_feedUpTo_and_dataReadys n hl
  exact ⟨t, withOut o t, hfeed, hrun, rfl⟩

/-! ## A READ in progress (R56 (c), (d), R82) -/

/-- A READ in progress makes one more READ-step when no outside step is next in the script. -/
theorem step_reading {s : State} (hr : s.reading = true) (hp : s.pipe = .off)
    (hs : ∀ e, s.script.head? = some e → isOutside e = false) : step s = exec .read s.clearOut := by
  have hbusy : consumerBusy s.clearOut = true := (consumerBusy_eq_true_iff _).2 (.inl hr)
  have hwaits : ∀ e rest, s.clearOut.script = e :: rest → isOutside e = false := fun e rest h =>
    hs e (congrArg List.head? h)
  exact (advance_continue hbusy hwaits).trans (continueOperation_read hp)

/-- A held READ lets an outside step through, whatever the interleaving says (log 17). -/
theorem step_held {s : State} {e : ProgramStep} {rest : List ProgramStep} (hr : s.reading = true)
    (hready : s.F.ready = false) (hq : s.queue = []) (hs : s.script = e :: rest) (he : isOutside e = true) :
    step s = issue e (s.clearOut.withScript rest) := by
  have hbusy : consumerBusy s.clearOut = true := (consumerBusy_eq_true_iff _).2 (.inl hr)
  have hheld : readHeld s.clearOut = true := (readHeld_eq_true_iff _).2 ⟨hr, hready, hq⟩
  simp [step, advance, advanceBusy, hbusy, hs, he, hheld]

theorem withReading_self {s : State} {v : Bool} (h : s.reading = v) : s.withReading v = s := by
  subst h
  rfl

/-- Settles O53: no operation of the consumer is an outside step. -/
theorem readInProgressGoesOn : Obligations.ReadInProgressGoesOn := by
  intro s hr hp hs
  refine step_reading hr hp fun e he => ?_
  obtain rfl | rfl | rfl | rfl | ⟨b, rfl⟩ := hs e he <;> rfl

/-- Settles O54: with nothing to poll and READ in progress already, a READ-step changes nothing; an outside step
goes through. -/
theorem heldReadWaits : Obligations.HeldReadWaits := by
  intro s hl hr hp hready hq
  refine ⟨fun hs => ?waits, fun b rest hs => ?byte, fun rest hs => ?reset⟩
  case waits =>
    calc step s
      _ = exec .read s.clearOut := step_reading hr hp (by simp [hs])
      _ = .next (finishOrHold s.clearOut) := (Polled.idle (s := s.clearOut) (.inr hq)).read_eq (hl.congr rfl rfl)
      _ = .next (s.clearOut.withReading true) := congrArg _ (finishOrHold_hold hready)
      _ = .next s.clearOut := congrArg _ (withReading_self hr)
  case byte =>
    rw [step_held hr hready hq hs rfl, issue_tx, receive, State.withScript_queue, State.clearOut_queue, hq]
    rfl
  case reset =>
    exact ⟨_, (step_held hr hready hq hs rfl).trans (issue_rst _), rfl, rfl, rfl, hq⟩

end Sys2Proof.Machine
end

section
/-! SUPPORT. The message as a string, what `Contains` decides, and the connection flag's operations: the
statements of 41_connection_state.md. -/

namespace Sys2Proof.Machine

/-! ## The message as a string (R59, D9) -/

theorem ne_nul_of_mem_cString {m : List Byte} {b : Byte} (h : b ∈ cString m) : b ≠ 0x00#8 :=
  bne_iff_ne.1 (List.mem_takeWhile_imp (p := fun b : Byte => b != 0x00#8) h)

/-- What `cString` leaves out of the message: the first 0x00 and all behind it. -/
def afterCString (m : List Byte) : List Byte := m.dropWhile (fun b => b != 0x00#8)

theorem cString_append_afterCString (m : List Byte) : cString m ++ afterCString m = m :=
  List.takeWhile_append_dropWhile

theorem afterCString_starts_with_nul (m : List Byte) :
    afterCString m = [] ∨ (afterCString m).head? = some 0x00#8 := by
  induction m with
  | nil => exact .inl rfl
  | cons b rest ih =>
    by_cases hb : b = 0x00#8
    · exact .inr (by simp [afterCString, hb])
    · simpa [afterCString, List.dropWhile_cons, hb] using ih

/-- Settles O8: the message is its string and what `cString` leaves out of it. -/
theorem stringEndsAtFirstNul : Obligations.StringEndsAtFirstNul := fun m =>
  ⟨afterCString m, (cString_append_afterCString m).symm, fun _ => ne_nul_of_mem_cString,
    afterCString_starts_with_nul m⟩

/-! ## Contains (R60) -/

/-- `Contains` decides the library's relation `<:+:`: a run stands at the head of the message or in the rest. -/
theorem containsRun_iff_isInfix (msg run : List Byte) : containsRun msg run = true ↔ run <:+: msg := by
  induction msg with
  | nil => simp [containsRun]
  | cons b rest ih => simp [containsRun, ih, List.infix_cons_iff]

/-- `<:+:` in the words of R60: the run stands at some index, byte for byte. -/
theorem isInfix_iff_exists_index {run msg : List Byte} :
    run <:+: msg ↔
      ∃ i, i + run.length ≤ msg.length ∧ ∀ j, j < run.length → msg[i + j]? = run[j]? := by
  rw [List.infix_iff_getElem?]
  refine exists_congr fun i => and_congr (by rw [Nat.add_comm]) (forall₂_congr fun j hj => ?_)
  rw [Nat.add_comm j i, List.getElem?_eq_getElem hj]

theorem length_discStr : Config.discStr.length = 10 := rfl

theorem length_openStr : Config.openStr.length = 11 := rfl

/-- Settles O9: `Contains` decides `<:+:`, and the bounds are 79 less the lengths of the two strings. -/
theorem containsIsContiguousMatch : Obligations.ContainsIsContiguousMatch := by
  refine ⟨fun msg run => (containsRun_iff_isInfix msg run).trans isInfix_iff_exists_index, fun msg i hcap => ?_⟩
  have hlen : msg.length ≤ 79 := hcap
  rw [length_discStr, length_openStr]
  exact ⟨fun h => by omega, fun h => by omega⟩

/-! ## What UPDATE makes of the flag (R61 to R64) -/

theorem connectedAfter_disconnect (old : Bool) : connectedAfter true false old = false := rfl

theorem connectedAfter_streamOpen (old : Bool) : connectedAfter false true old = true := rfl

theorem connectedAfter_both (old : Bool) : connectedAfter true true old = Config.bothMatchResult := rfl

theorem connectedAfter_neither (old : Bool) : connectedAfter false false old = old := rfl

/-- UPDATE in a legal state, by whether the message holds DISCONNECT (`d`) and STREAM_OPEN (`o`): the flag and
the event, and nothing else (R59). -/
theorem exec_cUpdate_of_contains {s : State} {m : List Byte} {d o : Bool} (hl : Legal s)
    (hd : containsRun (cString m) Config.discStr = d) (ho : containsRun (cString m) Config.openStr = o) :
    exec (.cUpdate m) s =
      .next { s with connected := connectedAfter d o s.connected, out := s.out ++ [.message (cString m)] } := by
  subst hd ho
  exact checked_of_legal hl (.next (update m s))

/-- Settles O17: `exec_cUpdate_of_contains` in case d. -/
theorem disconnectClearsTheFlag : Obligations.DisconnectClearsTheFlag := by
  intro s m hl hd ho
  rw [exec_cUpdate_of_contains hl hd ho, connectedAfter_disconnect]

/-- Settles O18: `exec_cUpdate_of_contains` in case s. -/
theorem streamOpenSetsTheFlag : Obligations.StreamOpenSetsTheFlag := by
  intro s m hl hd ho
  rw [exec_cUpdate_of_contains hl hd ho, connectedAfter_streamOpen]

/-- Settles O19, for either value of the open parameter (log 7). -/
theorem bothMatchesTakeTheParameter : Obligations.BothMatchesTakeTheParameter := by
  intro s m hl hd ho
  rw [exec_cUpdate_of_contains hl hd ho, connectedAfter_both]

/-- Settles O20: `exec_cUpdate_of_contains` with neither string, where the flag written is the old one. -/
theorem otherMessagesKeepTheFlag : Obligations.OtherMessagesKeepTheFlag := by
  intro s m hl hd ho
  rw [exec_cUpdate_of_contains hl hd ho, connectedAfter_neither]

/-! ## IS_CONNECTED (R65) -/

/-- Settles O21: past the check of R25 the operation is one output. -/
theorem isConnectedReturnsTheFlag : Obligations.IsConnectedReturnsTheFlag := fun s hl =>
  checked_of_legal hl (.next (s.emit (.isConnected s.connected)))

end Sys2Proof.Machine
end

section
/-! SUPPORT. What the parser does with a byte and with a list of bytes, on its own registers; the statements of
42_packet_parser.md R66 to R78. -/

namespace Sys2Proof.Machine

/-! ## The parser's rows (R67 to R74) -/

/-- The parser with the registers `r` takes the byte `b` by the row `i`, leaves the registers `r'` and emits `o`
(R38, R67 to R74). -/
inductive ParserTakes (r : ParserRegs) : Byte → Instr → ParserRegs → List Output → Prop where
  | opens (hp : r.state = ParserState.idle.code) :
      ParserTakes r Config.frameOpen .pIdleOpen (r.withState ParserState.sequenceNumber.code) []
  | ignores (b : Byte) (hp : r.state = ParserState.idle.code) (hne : b ≠ Config.frameOpen) :
      ParserTakes r b (.pIdleIgnore b) r []
  | sequenceDigit (b : Byte) (hp : r.state = ParserState.sequenceNumber.code) :
      ParserTakes r b (.pSeq b) (r.withState ParserState.packetId.code) []
  | typeByte (b : Byte) (hp : r.state = ParserState.packetId.code) :
      ParserTakes r b (.pId b) ((r.withTypeId b).withState ParserState.payloadSize0.code) []
  | lengthHigh (b : Byte) (hp : r.state = ParserState.payloadSize0.code) :
      ParserTakes r b (.pSize0 b)
        ((r.withLen (lenOf (highDigit b))).withState ParserState.payloadSize1.code) []
  | lengthLow (b : Byte) (hp : r.state = ParserState.payloadSize1.code) :
      ParserTakes r b (.pSize1 b)
        ((r.withLen (lenWithLowDigit r.len b)).withState ParserState.payload0.code) []
  | payloadHigh (b : Byte) (hp : r.state = ParserState.payload0.code) :
      ParserTakes r b (.pPay0 b)
        (((r.withAcc (highDigit b)).withLen (lenLess r.len)).withState (afterDigit (lenLess r.len) .payload1)) []
  | payloadLow (b : Byte) (hp : r.state = ParserState.payload1.code) :
      ParserTakes r b (.pPay1 b)
        (((r.withAcc (withLowDigit r.acc b)).withLen (lenLess r.len)).withState
          (afterDigit (lenLess r.len) .payload0))
        [.action r.typeId (withLowDigit r.acc b)]

/-- The state with the parser's registers replaced and some outputs more: all the parser can do to it (R66). -/
def parsed (s : State) (r : ParserRegs) (o : List Output) : State := { s with P := r, out := s.out ++ o }

theorem parsed_nil (s : State) (r : ParserRegs) : parsed s r [] = s.withP r := by
  rw [parsed, List.append_nil]
  rfl

theorem parsed_parsed (s : State) (r r' : ParserRegs) (o o' : List Output) :
    parsed (parsed s r o) r' o' = parsed s r' (o ++ o') := by
  simp [parsed]

theorem whenSelected_runs {s : State} (hl : Legal s) {c : Bool} (hc : c = true) (m : String) (k : Result) :
    whenSelected m s c k = k := by
  rw [whenSelected_of_legal hl, if_pos hc]

theorem parserIn_eq_true {s : State} {p : ParserState} (h : s.P.state = p.code) : parserIn s p = true :=
  beq_iff_eq.2 h

/-- A selected row answers what `ParserTakes` says, from every legal state. -/
theorem ParserTakes.exec_eq {s : State} {b : Byte} {i : Instr} {r : ParserRegs} {o : List Output}
    (h : ParserTakes s.P b i r o) (hl : Legal s) : exec i s = .next (parsed s r o) := by
  have silent {m : String} {p : ParserState} {r : ParserRegs} (hp : s.P.state = p.code) :
      whenSelected m s (parserIn s p) (.next (s.withP r)) = .next (parsed s r []) := by
    rw [whenSelected_runs hl (parserIn_eq_true hp), parsed_nil]
  cases h with
  | opens hp => exact silent hp
  | ignores b hp hne =>
    rw [parsed_nil]
    exact whenSelected_runs hl (by simp [parserIn_eq_true hp, hne]) _ _
  | sequenceDigit b hp => exact silent hp
  | typeByte b hp => exact silent hp
  | lengthHigh b hp => exact silent hp
  | lengthLow b hp => exact silent hp
  | payloadHigh b hp => exact silent hp
  | payloadLow b hp => exact whenSelected_runs hl (parserIn_eq_true hp) _ _

/-- A row that emits nothing changes the parser's registers alone. -/
theorem ParserTakes.exec_silent {s : State} {b : Byte} {i : Instr} {r : ParserRegs}
    (h : ParserTakes s.P b i r []) (hl : Legal s) : exec i s = .next (s.withP r) := by
  rw [h.exec_eq hl, parsed_nil]

/-- The row that takes a byte is R38's case for it. -/
theorem ParserTakes.eq_parserCase {r r' : ParserRegs} {b : Byte} {i : Instr} {o : List Output}
    (h : ParserTakes r b i r' o) {p : ParserState} (hp : r.state = p.code) : i = parserCase p b := by
  cases h with
  | opens hq | sequenceDigit _ hq | typeByte _ hq | lengthHigh _ hq | lengthLow _ hq | payloadHigh _ hq
  | payloadLow _ hq =>
    obtain rfl := ParserState.code_injective (hp.symm.trans hq)
    rfl
  | ignores b hq hne =>
    obtain rfl := ParserState.code_injective (hp.symm.trans hq)
    exact (if_neg hne).symm

/-- Every byte is taken by some row in each of the seven states (R38, R47). -/
theorem exists_parserTakes_of_state {r : ParserRegs} {p : ParserState} (hp : r.state = p.code) (b : Byte) :
    ∃ i r' o, ParserTakes r b i r' o := by
  cases p with
  | idle =>
    by_cases hb : b = Config.frameOpen
    · subst hb; exact ⟨_, _, _, .opens hp⟩
    · exact ⟨_, _, _, .ignores b hp hb⟩
  | sequenceNumber => exact ⟨_, _, _, .sequenceDigit b hp⟩
  | packetId => exact ⟨_, _, _, .typeByte b hp⟩
  | payloadSize0 => exact ⟨_, _, _, .lengthHigh b hp⟩
  | payloadSize1 => exact ⟨_, _, _, .lengthLow b hp⟩
  | payload0 => exact ⟨_, _, _, .payloadHigh b hp⟩
  | payload1 => exact ⟨_, _, _, .payloadLow b hp⟩

theorem Legal.exists_parserTakes {s : State} (hl : Legal s) (b : Byte) : ∃ i r o, ParserTakes s.P b i r o := by
  obtain ⟨p, hp⟩ := exists_parserState hl
  exact exists_parserTakes_of_state hp b

/-- CONSUME runs the row that takes its byte (R66). -/
theorem ParserTakes.consume_eq {s : State} {b : Byte} {i : Instr} {r : ParserRegs} {o : List Output}
    (h : ParserTakes s.P b i r o) (hl : Legal s) : exec (.consume b) s = .next (parsed s r o) := by
  obtain ⟨p, hp⟩ := exists_parserState hl
  obtain ⟨t, hconsume, hrow⟩ := execConsume_runs_parserCase hl hp b
  rw [← h.eq_parserCase hp, h.exec_eq hl] at hrow
  rw [hrow]
  exact hconsume

theorem ParserTakes.keeps_legal {s : State} {b : Byte} {i : Instr} {r : ParserRegs} {o : List Output}
    (h : ParserTakes s.P b i r o) (hl : Legal s) : Legal (parsed s r o) :=
  (parserStep_of_execConsume (h.consume_eq hl)).keeps_legal hl

/-- A row emits nothing, or it is the low payload digit's and emits one action (R66, R74). -/
theorem ParserTakes.emits {r r' : ParserRegs} {b : Byte} {i : Instr} {o : List Output}
    (h : ParserTakes r b i r' o) :
    o = [] ∨ r.state = ParserState.payload1.code ∧ i = .pPay1 b ∧
      o = [.action r.typeId (withLowDigit r.acc b)] := by
  cases h with
  | payloadLow b hp => exact .inr ⟨hp, rfl, rfl⟩
  | opens | ignores | sequenceDigit | typeByte | lengthHigh | lengthLow | payloadHigh => exact .inl rfl

/-! ## The rows in the words of their rules -/

/-- The digit that brings the counter to 0 ends the payload, and it is the one that finds 1 there (R73, R74). -/
theorem afterDigit_lenLess (l : BitVec Config.lenWidth) (other : ParserState) :
    afterDigit (lenLess l) other = if l = 1#8 then 0#3 else other.code := by
  have hlast : lenLess l = 0 ↔ l = 1#8 := sub_eq_zero
  simp only [afterDigit, hlast]
  rfl

/-- Settles O29, by the row's rule `ParserTakes.opens`. -/
theorem frameOpenStartsAFrame : Obligations.FrameOpenStartsAFrame :=
  fun _ hl hp => (ParserTakes.opens hp).exec_silent hl

/-- Settles O30, by the row's rule `ParserTakes.ignores`. -/
theorem bytesOutsideFramesAreIgnored : Obligations.BytesOutsideFramesAreIgnored :=
  fun _ b hl hp hne => (ParserTakes.ignores b hp hne).exec_silent hl

/-- Settles O31, by the row's rule `ParserTakes.sequenceDigit`. -/
theorem sequenceDigitIsDiscarded : Obligations.SequenceDigitIsDiscarded :=
  fun _ b hl hp => (ParserTakes.sequenceDigit b hp).exec_silent hl

/-- Settles O32, by the row's rule `ParserTakes.typeByte`. -/
theorem typeIdIsStored : Obligations.TypeIdIsStored :=
  fun _ b hl hp => (ParserTakes.typeByte b hp).exec_silent hl

/-- Settles O33: at 8 bits the counter takes the high digit as it is. -/
theorem lengthHighDigit : Obligations.LengthHighDigit := by
  intro s b hl hp
  rw [(ParserTakes.lengthHigh b hp).exec_silent hl, lenOf_eq, highDigit_eq]
  rfl

/-- Settles O34: at 8 bits the whole HexNib value is ORed in. -/
theorem lengthLowDigit : Obligations.LengthLowDigit := by
  intro s b hl hp
  rw [(ParserTakes.lengthLow b hp).exec_silent hl, lenWithLowDigit_eq]
  rfl

/-- Settles O35: the counter is 0 after the digit that finds 1 there. -/
theorem payloadHighDigit : Obligations.PayloadHighDigit := by
  intro s b hl hp
  rw [(ParserTakes.payloadHigh b hp).exec_silent hl, highDigit_eq, afterDigit_lenLess]
  rfl

/-- Settles O36: as O35, with the action of the whole byte. -/
theorem payloadLowDigitEmits : Obligations.PayloadLowDigitEmits := by
  intro s b hl hp
  rw [(ParserTakes.payloadLow b hp).exec_eq hl, afterDigit_lenLess]
  rfl

/-- Settles O37: the row that takes the byte is the one it decodes to, and its frame is that of any row. -/
theorem consumeRunsTheDecodedCase : Obligations.ConsumeRunsTheDecodedCase := by
  intro s b hl
  obtain ⟨p, hp⟩ := exists_parserState hl
  obtain ⟨i, r, o, htakes⟩ := exists_parserTakes_of_state hp b
  have hdecode : decode (.parserByte s.P.state b) = .ok i := by
    rw [hp, decode_parserByte, htakes.eq_parserCase hp]
  have hout : (parsed s r o).out = s.out ∨ ∃ d, (parsed s r o).out = s.out ++ [.action s.P.typeId d] := by
    obtain rfl | ⟨-, -, rfl⟩ := htakes.emits
    · exact .inl (List.append_nil _)
    · exact .inr ⟨_, rfl⟩
  exact ⟨i, parsed s r o, hdecode, htakes.consume_eq hl, htakes.exec_eq hl, hout, rfl, rfl, rfl, rfl,
    ⟨rfl, rfl, rfl, rfl⟩⟩

/-! ## Who emits an action -/

/-- UPDATE's event is the filter's only output (R54). -/
theorem FilterStep.action_mem_out {s t : State} {b : Byte} {i : Instr} {ty d : Byte} (h : FilterStep s b i t)
    (hmem : .action ty d ∈ t.out) : .action ty d ∈ s.out := by
  cases h with
  | opens | inBand | appends | drops => exact hmem
  | closes => simpa [endMessage, terminate] using hmem

theorem Polled.action_mem_out {s t : State} {ty d : Byte} (h : Polled s t) (hmem : .action ty d ∈ t.out) :
    .action ty d ∈ s.out := by
  cases h with
  | idle => exact hmem
  | fed _ _ hstep => exact hstep.action_mem_out hmem

theorem action_mem_finishOrHold {s : State} {ty d : Byte} (hmem : .action ty d ∈ (finishOrHold s).out) :
    .action ty d ∈ s.out := by
  cases hr : s.F.ready with
  | true => simpa [finishOrHold_ready hr] using hmem
  | false => simpa [finishOrHold_hold hr] using hmem

/-- Every row of the parser takes some byte. -/
theorem exists_parserTakes_of_row {i : Instr} (hi : IsParserRow i) {s t : State} (h : exec i s = .next t) :
    ∃ b r o, ParserTakes s.P b i r o := by
  have selected {m : String} {p : ParserState} {k : Result}
      (hw : whenSelected m s (parserIn s p) k = .next t) : s.P.state = p.code :=
    beq_iff_eq.1 (whenSelected_eq_next hw).2.1
  cases hi with
  | pIdleOpen => exact ⟨_, _, _, .opens (selected h)⟩
  | pIdleIgnore b =>
    obtain ⟨hp, hne⟩ := Bool.and_eq_true_iff.1 (whenSelected_eq_next h).2.1
    exact ⟨_, _, _, .ignores b (beq_iff_eq.1 hp) (bne_iff_ne.1 hne)⟩
  | pSeq b => exact ⟨_, _, _, .sequenceDigit b (selected h)⟩
  | pId b => exact ⟨_, _, _, .typeByte b (selected h)⟩
  | pSize0 b => exact ⟨_, _, _, .lengthHigh b (selected h)⟩
  | pSize1 b => exact ⟨_, _, _, .lengthLow b (selected h)⟩
  | pPay0 b => exact ⟨_, _, _, .payloadHigh b (selected h)⟩
  | pPay1 b => exact ⟨_, _, _, .payloadLow b (selected h)⟩

/-- An action that taking a byte adds is the low payload digit's. -/
theorem ParserTakes.of_new_action {s t : State} {b ty d : Byte} {i : Instr} {r : ParserRegs} {o : List Output}
    (h : ParserTakes s.P b i r o) (ht : t = parsed s r o) (hmem : .action ty d ∈ t.out)
    (hnew : .action ty d ∉ s.out) :
    s.P.state = ParserState.payload1.code ∧ i = .pPay1 b ∧ ty = s.P.typeId ∧ d = withLowDigit s.P.acc b := by
  subst ht
  have ho : Output.action ty d ∈ o := (List.mem_append.1 hmem).resolve_left hnew
  obtain rfl | ⟨hp, hi, rfl⟩ := h.emits
  · exact absurd ho List.not_mem_nil
  · obtain ⟨hty, hd⟩ := Output.action.inj (List.mem_singleton.1 ho)
    exact ⟨hp, hi, hty, hd⟩

/-- Settles O38, by what each instruction can do: only the parser emits an action, and only by the low payload
digit's row, alone or inside CONSUME. -/
theorem onlyPayload1EmitsActions : Obligations.OnlyPayload1EmitsActions := by
  intro i s t ty d h hmem hnew
  have result {r : ParserRegs} {o : List Output} (hr : exec i s = .next (parsed s r o)) : t = parsed s r o :=
    Host.Outcome.next.inj (h.symm.trans hr)
  cases exec_effect h with
  | reset => exact absurd hmem hnew
  | isConnected | update => exact absurd (by simpa using hmem) hnew
  | dataReady hp => exact absurd (hp.action_mem_out (by simpa using hmem)) hnew
  | read hp => exact absurd (hp.action_mem_out (action_mem_finishOrHold hmem)) hnew
  | feed hstep | filterRow hstep => exact absurd (hstep.action_mem_out hmem) hnew
  | consume b =>
    have hl : Legal s := legal_of_exec (i := .consume b) nofun h
    obtain ⟨j, r, o, htakes⟩ := hl.exists_parserTakes b
    obtain ⟨hp, -, hty, hd⟩ := htakes.of_new_action (result (htakes.consume_eq hl)) hmem hnew
    exact ⟨hp, hty, b, .inr rfl, hd⟩
  | parserRow hrow =>
    have hl : Legal s := legal_of_exec (by cases hrow <;> nofun) h
    obtain ⟨b, r, o, htakes⟩ := exists_parserTakes_of_row hrow h
    obtain ⟨hp, hi, hty, hd⟩ := htakes.of_new_action (result (htakes.exec_eq hl)) hmem hnew
    exact ⟨hp, hty, b, .inl hi, hd⟩

/-! ## A list of bytes -/

/-- The parser with the registers `r` takes the bytes one after another, leaves `r'` and emits the outputs. -/
inductive Parses : ParserRegs → List Byte → ParserRegs → List Output → Prop where
  | nil (r : ParserRegs) : Parses r [] r []
  | cons {r r' r'' : ParserRegs} {b : Byte} {bs : List Byte} {i : Instr} {o o' : List Output}
      (h : ParserTakes r b i r' o) (hs : Parses r' bs r'' o') : Parses r (b :: bs) r'' (o ++ o')

theorem Parses.singleton {r r' : ParserRegs} {b : Byte} {i : Instr} {o : List Output}
    (h : ParserTakes r b i r' o) : Parses r [b] r' o :=
  List.append_nil o ▸ .cons h (.nil r')

theorem Parses.append {r r' r'' : ParserRegs} {bs bs' : List Byte} {o o' : List Output}
    (h : Parses r bs r' o) (h' : Parses r' bs' r'' o') : Parses r (bs ++ bs') r'' (o ++ o') := by
  induction h with
  | nil r => exact h'
  | cons hb _ ih =>
    rw [List.append_assoc]
    exact .cons hb (ih h')

/-- A run of CONSUMEs is the parser taking their bytes, and nothing else (R66). -/
theorem Parses.execAll_eq {s : State} {bs : List Byte} {r : ParserRegs} {o : List Output}
    (h : Parses s.P bs r o) (hl : Legal s) : execAll (bs.map .consume) s = .next (parsed s r o) := by
  generalize hs : s.P = r₀ at h
  induction h generalizing s with
  | nil r₀ => subst hs; exact congrArg _ (parsed_nil s s.P).symm
  | @cons r₀ r' _ b bs _ o _ hb _ ih =>
    subst hs
    calc execAll ((b :: bs).map .consume) s
      _ = andThen (exec (.consume b) s) (execAll (bs.map .consume)) := rfl
      _ = execAll (bs.map .consume) (parsed s r' o) := by rw [hb.consume_eq hl, andThen_of_next]
      _ = _ := by rw [ih (hb.keeps_legal hl) rfl, parsed_parsed]

/-! ## The payload's length (R73 to R77) -/

/-- How many payload digits the counter still asks for, at least one: it is decremented before it is tested, so
at 0 it asks for 256 (R73, R76). -/
def digitsDue (l : BitVec Config.lenWidth) : Nat := (lenLess l).toNat + 1

theorem digitsDue_of_ne_zero {l : BitVec Config.lenWidth} (h : l ≠ 0) : digitsDue l = l.toNat := lenLess_toNat h

theorem digitsDue_zero : digitsDue 0 = 256 := by
  rw [digitsDue, lenLess_zero]
  rfl

theorem digitsDue_eq_one_iff (l : BitVec Config.lenWidth) : digitsDue l = 1 ↔ lenLess l = 0 :=
  Nat.succ_inj.trans (BitVec.toNat_eq (y := 0)).symm

/-- The last digit returns to IDLE, every other one goes on with the other payload state, one digit fewer due. -/
theorem afterDigit_of_last {l : BitVec Config.lenWidth} (h : digitsDue l = 1) (other : ParserState) :
    afterDigit (lenLess l) other = ParserState.idle.code :=
  if_pos ((digitsDue_eq_one_iff l).1 h)

theorem afterDigit_of_not_last {l : BitVec Config.lenWidth} (h : digitsDue l ≠ 1) (other : ParserState) :
    afterDigit (lenLess l) other = other.code :=
  if_neg (mt (digitsDue_eq_one_iff l).2 h)

theorem digitsDue_lenLess {l : BitVec Config.lenWidth} (h : digitsDue l ≠ 1) :
    digitsDue (lenLess l) + 1 = digitsDue l :=
  congrArg (· + 1) (digitsDue_of_ne_zero (mt (digitsDue_eq_one_iff l).2 h))

theorem length_payloadActions (ty : Byte) : ∀ ds : List Byte, (payloadActions ty ds).length = ds.length / 2
  | [] => rfl
  | [_] => by simp [payloadActions]
  | a :: b :: rest => by
    simp only [payloadActions, List.length_cons, length_payloadActions ty rest]
    omega

/-- Two payload digits make one action, and two digits fewer are due. -/
theorem exists_parses_pair {r : ParserRegs} (hp : r.state = ParserState.payload0.code)
    (hdue : digitsDue r.len ≠ 1) (a b : Byte) :
    ∃ r', Parses r [a, b] r' [.action r.typeId (withLowDigit (highDigit a) b)] ∧ r'.typeId = r.typeId ∧
      (digitsDue r.len = 2 → r'.state = ParserState.idle.code) ∧
      (digitsDue r.len ≠ 2 → r'.state = ParserState.payload0.code ∧ digitsDue r'.len + 2 = digitsDue r.len) := by
  have hone := digitsDue_lenLess hdue
  refine ⟨_, .cons (.payloadHigh a hp) (.singleton (.payloadLow b (afterDigit_of_not_last hdue _))), rfl,
    fun htwo => ?last, fun htwo => ⟨?goesOn, ?fewer⟩⟩
  case last => exact afterDigit_of_last (by omega : digitsDue (lenLess r.len) = 1) _
  case goesOn => exact afterDigit_of_not_last (by omega : digitsDue (lenLess r.len) ≠ 1) _
  case fewer =>
    have htwoLess := digitsDue_lenLess (by omega : digitsDue (lenLess r.len) ≠ 1)
    show digitsDue (lenLess (lenLess r.len)) + 2 = digitsDue r.len
    omega

/-- A payload up to its length: one action a pair, and IDLE exactly when all the digits due have come
(R75 to R77). -/
theorem exists_parses_payload : ∀ (ds : List Byte) {r : ParserRegs}, r.state = ParserState.payload0.code →
    ds.length ≤ digitsDue r.len →
    ∃ r', Parses r ds r' (payloadActions r.typeId ds) ∧
      (r'.state = ParserState.idle.code ↔ ds.length = digitsDue r.len)
  | [], r, hp, _ => by
    refine ⟨r, .nil r, iff_of_false ?_ (Nat.succ_ne_zero _).symm⟩
    rw [hp]
    decide
  | [a], r, hp, _ => by
    refine ⟨_, .singleton (.payloadHigh a hp), ?_⟩
    by_cases hdue : digitsDue r.len = 1
    · exact iff_of_true (afterDigit_of_last hdue _) hdue.symm
    · refine iff_of_false ?_ (Ne.symm hdue)
      rw [ParserRegs.withState_state, afterDigit_of_not_last hdue]
      decide
  | a :: b :: rest, r, hp, hle => by
    simp only [List.length_cons] at hle ⊢
    obtain ⟨r', hpair, hty, hlast, hgoesOn⟩ := exists_parses_pair hp (by omega) a b
    by_cases htwo : digitsDue r.len = 2
    · obtain rfl : rest = [] := List.eq_nil_of_length_eq_zero (by omega)
      exact ⟨r', hpair, iff_of_true (hlast htwo) htwo.symm⟩
    · obtain ⟨hp', hfewer⟩ := hgoesOn htwo
      obtain ⟨r'', hrest, hidle⟩ := exists_parses_payload rest hp' (by omega)
      refine ⟨r'', hty ▸ hpair.append hrest, hidle.trans ?_⟩
      omega

/-- A payload of exactly the digits due, in the words of R75 to R77. -/
theorem execAll_payload {s : State} {ds : List Byte} (hl : Legal s) (hp : s.P.state = ParserState.payload0.code)
    (hlen : ds.length = digitsDue s.P.len) :
    (∃ t, execAll (ds.map .consume) s = .next t ∧ t.P.state = 0#3 ∧
      t.out = s.out ++ payloadActions s.P.typeId ds) ∧
    ∀ k < ds.length, ∃ u, execAll ((ds.take k).map .consume) s = .next u ∧ u.P.state ≠ 0#3 := by
  constructor
  · obtain ⟨r, hparses, hidle⟩ := exists_parses_payload ds hp hlen.le
    exact ⟨_, hparses.execAll_eq hl, hidle.2 hlen, rfl⟩
  · intro k hk
    have hshort : (ds.take k).length < digitsDue s.P.len := by
      rw [List.length_take]
      omega
    obtain ⟨r, hparses, hidle⟩ := exists_parses_payload (ds.take k) hp hshort.le
    exact ⟨_, hparses.execAll_eq hl, mt hidle.1 hshort.ne⟩

/-- Settles O39: a length that is not 0 is the number of digits due. -/
theorem payloadTakesItsLength : Obligations.PayloadTakesItsLength := by
  intro s ds hl hp hne hlen
  obtain ⟨hwhole, hbefore⟩ := execAll_payload hl hp (hlen.trans (digitsDue_of_ne_zero hne).symm)
  exact ⟨hwhole, hlen ▸ length_payloadActions _ ds, hbefore⟩

/-- Settles O40: at length 0 the counter asks for 256 digits. -/
theorem zeroLengthTakes256Digits : Obligations.ZeroLengthTakes256Digits := by
  intro s ds hl hp hzero hlen
  have hdue : digitsDue s.P.len = 256 := by rw [hzero]; exact digitsDue_zero
  obtain ⟨hwhole, hbefore⟩ := execAll_payload hl hp (hlen.trans hdue.symm)
  exact ⟨hwhole, by rw [length_payloadActions, hlen], hlen ▸ hbefore⟩

/-! ## A whole frame (R43, R44, R78) -/

/-- The registers after a frame's header: only the accumulator is left as it was. -/
def afterHeader (ty h l : Byte) (r : ParserRegs) : ParserRegs :=
  { r with state := ParserState.payload0.code, typeId := ty, len := lenWithLowDigit (lenOf (highDigit h)) l }

theorem parses_header {r : ParserRegs} (hp : r.state = ParserState.idle.code) (sq ty h l : Byte) :
    Parses r [0x5B#8, sq, ty, h, l] (afterHeader ty h l r) [] :=
  .cons (.opens hp) (.cons (.sequenceDigit sq rfl) (.cons (.typeByte ty rfl) (.cons (.lengthHigh h rfl)
    (.singleton (.lengthLow l rfl)))))

/-- Two hex digits spell the length (R41, R43). -/
theorem afterHeader_len_toNat {h l : Byte} (hh : isHexDigit h = true) (hl : isHexDigit l = true) (ty : Byte)
    (r : ParserRegs) : (afterHeader ty h l r).len.toNat = 16 * (hexNib h).toNat + (hexNib l).toNat := by
  rw [afterHeader, lenOf_eq, lenWithLowDigit_eq_withLowDigit]
  exact digitPair_toNat_of_lt (hexNib_lt_of_isHexDigit hh) (hexNib_lt_of_isHexDigit hl)

/-- Of a pair of hex digits nothing is truncated (R41, R42). -/
theorem payloadActions_of_hexDigits (ty : Byte) :
    ∀ {p : List Byte}, p.all isHexDigit = true → payloadActions ty p = hexPairActions ty p
  | [], _ => rfl
  | [_], _ => rfl
  | a :: b :: rest, h => by
    obtain ⟨ha, hb, hrest⟩ : isHexDigit a = true ∧ isHexDigit b = true ∧ rest.all isHexDigit = true := by
      simpa only [List.all_cons, Bool.and_eq_true] using h
    have hbyte : withLowDigit (highDigit a) b = BitVec.ofNat 8 (16 * (hexNib a).toNat + (hexNib b).toNat) := by
      rw [← digitPair_toNat_of_lt (hexNib_lt_of_isHexDigit ha) (hexNib_lt_of_isHexDigit hb),
        BitVec.ofNat_toNat, BitVec.setWidth_eq]
    rw [payloadActions, hexPairActions, hbyte, payloadActions_of_hexDigits ty hrest]

/-- Settles O41: the header, and then a payload of the digits due. -/
theorem frameEmitsItsActions : Obligations.FrameEmitsItsActions := by
  intro s sq ty h l p hl hp hh hlow hall hlen hpos
  have htoNat := (afterHeader_len_toNat hh hlow ty s.P).trans hlen.symm
  have hne : (afterHeader ty h l s.P).len ≠ 0 := by
    intro hzero
    rw [hzero] at htoNat
    exact absurd (htoNat.trans_ge hpos) (by decide)
  have hdue : p.length = digitsDue (afterHeader ty h l s.P).len :=
    ((digitsDue_of_ne_zero hne).trans htoNat).symm
  obtain ⟨r, hpayload, hidle⟩ := exists_parses_payload p (r := afterHeader ty h l s.P) rfl hdue.le
  rw [← payloadActions_of_hexDigits ty hall]
  exact ⟨_, ((parses_header hp sq ty h l).append hpayload).execAll_eq hl, hidle.2 hdue, rfl,
    length_payloadActions ty p, rfl, rfl⟩

end Sys2Proof.Machine
end

section
/-! SUPPORT. The loop PIPE from its test to its test, and a whole stream drained through it; the statements of
42_packet_parser.md R79. -/

namespace Sys2Proof.Machine

/-! ## PIPE's steps -/

/-- No outside step stands next in the script. -/
def Quiet (s : State) : Prop := ∀ e, s.script.head? = some e → isOutside e = false

/-- What PIPE's DATAREADY leaves when it answers 1, the poll having left `s`. -/
def answered (s : State) : State := (s.emit (.dataReady true)).withPipe .read

/-- What PIPE's READ leaves of a state with a byte pending (R56, R79). -/
def handedOver (s : State) : State :=
  (finishOrHold s.clearOut).withPipe (.consume s.F.peek)

theorem handedOver_eq {s : State} (hr : s.F.ready = true) :
    handedOver s = { s with
      F := { s.F with ready := false }, reading := false, out := [.read s.F.peek], pipe := .consume s.F.peek } :=
  congrArg (State.withPipe · _) (finishOrHold_ready (s := s.clearOut) hr)

theorem handedOver_legal {s : State} (hl : Legal s) : Legal (handedOver s) :=
  (finishOrHold_keeps_legal (hl.congr rfl rfl : Legal s.clearOut)).congr rfl rfl

section Step

variable {s : State} (hquiet : Quiet s)
include hquiet

theorem step_pipe (hp : s.pipe ≠ .off) : step s = pipeStep s.clearOut := by
  have hbusy : consumerBusy s.clearOut = true := (consumerBusy_eq_true_iff _).2 (.inr hp)
  have hwaits : ∀ e rest, s.clearOut.script = e :: rest → isOutside e = false := fun e rest h =>
    hquiet e (congrArg List.head? h)
  exact (advance_continue hbusy hwaits).trans (continueOperation_pipe hp)

theorem step_pipe_done (hp : s.pipe = .test) (hq : s.queue = []) (hr : s.F.ready = false) :
    step s = .next (s.clearOut.withPipe .off) :=
  (step_pipe hquiet (by simp [hp])).trans (pipeStep_done hp hq hr)

/-- At the test with a byte left, DATAREADY's answer says whether READ comes next. -/
theorem step_pipe_test {u : State} (hl : Legal s) (hp : s.pipe = .test)
    (hmore : ¬ (s.queue = [] ∧ s.F.ready = false)) (hpoll : Polled s.clearOut u) :
    step s = .next ((u.emit (.dataReady u.F.ready)).withPipe (if u.F.ready then .read else .test)) := by
  have hrun : execDataReady s.clearOut = .next (u.emit (.dataReady u.F.ready)) :=
    hpoll.dataReady_eq (hl.congr rfl rfl)
  rw [step_pipe hquiet (by simp [hp]),
    pipeStep_test (s := s.clearOut) hp (transportReady_or_ready_of_not_drained hmore), hrun]
  rfl

/-- PIPE's READ with a byte pending finishes in one step. -/
theorem step_pipe_read (hl : Legal s) (hp : s.pipe = .read) (hr : s.F.ready = true) :
    step s = .next (handedOver s) := by
  have hrun : execRead s.clearOut = .next (finishOrHold s.clearOut) :=
    Polled.read_eq (s := s.clearOut) (.idle (.inl hr)) (hl.congr rfl rfl)
  have hpeek : (finishOrHold s.clearOut).F.peek = s.F.peek := by rw [finishOrHold_F]; rfl
  rw [step_pipe hquiet (by simp [hp]), pipeStep_read (s := s.clearOut) hp, hrun, andThen_of_next,
    finishOrHold_reading, hpeek]
  simp [hr, handedOver]

theorem step_pipe_consume {b : Byte} {i : Instr} {r : ParserRegs} {o : List Output} (hl : Legal s)
    (hp : s.pipe = .consume b) (h : ParserTakes s.P b i r o) :
    step s = .next ((parsed s.clearOut r o).withPipe .test) := by
  have hrun : execConsume b s.clearOut = .next (parsed s.clearOut r o) :=
    h.consume_eq (s := s.clearOut) (hl.congr rfl rfl)
  rw [step_pipe hquiet (by simp [hp]), pipeStep_consume (s := s.clearOut) hp, hrun]
  rfl

end Step

/-- Settles O57: the loop's test fails, so no operation is issued. -/
theorem pipeEndsWhenDrained : Obligations.PipeEndsWhenDrained :=
  fun _ hp hq hr hquiet => step_pipe_done hquiet hp hq hr

/-! ## One turn of the loop -/

/-- PIPE at its loop's test, and no outside step next. -/
structure AtTest (s : State) : Prop where
  legal : Legal s
  pipe : s.pipe = .test
  reading : s.reading = false
  quiet : Quiet s

/-- A poll leaves the loop where it stands. -/
theorem AtTest.polled {s u : State} (h : AtTest s) (hpoll : Polled s.clearOut u) : AtTest u where
  legal := hpoll.keeps_legal (h.legal.congr rfl rfl)
  pipe := hpoll.sameSchedule.pipe.trans h.pipe
  reading := hpoll.reading_eq.trans h.reading
  quiet := fun e he => h.quiet e (hpoll.sameSchedule.script ▸ he)

/-- The pending byte taken: what the parser's turn begins with. -/
def taken (s : State) : State := s.clearOut.withF (s.F.withReady false)

theorem handedOver_clearOut {u : State} (hr : u.F.ready = true) (hreading : u.reading = false) :
    (handedOver (answered u)).clearOut = (taken u).withPipe (.consume u.F.peek) := by
  rw [handedOver_eq (s := answered u) hr, taken, ← hreading]
  rfl

theorem parsed_taken_withPipe {u : State} (hp : u.pipe = .test) (p : PipePhase) (r : ParserRegs)
    (o : List Output) : (parsed ((taken u).withPipe p) r o).withPipe .test = parsed (taken u) r o := by
  rw [← hp]
  rfl

/-- With nothing in the transport and no byte pending, a poll makes none pending. -/
theorem Polled.not_drained {s u : State} (h : Polled s u) (hr : u.F.ready = true) :
    ¬ (s.queue = [] ∧ s.F.ready = false) := by
  rintro ⟨hq, hr'⟩
  cases h with
  | idle => simp [hr'] at hr
  | fed _ hq' => simp [hq] at hq'

/-- A turn of the loop on a byte that the poll leaves pending: DATAREADY, READ and CONSUME of it (R79). -/
theorem AtTest.three_steps {s u : State} {i : Instr} {r : ParserRegs} {o : List Output} (h : AtTest s)
    (hpoll : Polled s.clearOut u) (hr : u.F.ready = true) (htakes : ParserTakes u.P u.F.peek i r o) :
    step s = .next (answered u) ∧ step (answered u) = .next (handedOver (answered u)) ∧
      step (handedOver (answered u)) = .next (parsed (taken u) r o) := by
  have hu := h.polled hpoll
  have hl : Legal (answered u) := hu.legal.congr rfl rfl
  have hscript : (handedOver (answered u)).script = u.script := (finishOrHold_sameSchedule _).script
  have hP : (handedOver (answered u)).P = u.P := finishOrHold_P _
  have hquiet : Quiet (handedOver (answered u)) := fun e he => hu.quiet e (hscript ▸ he)
  refine ⟨?dataReady, step_pipe_read hu.quiet hl rfl hr, ?consume⟩
  case dataReady =>
    rw [step_pipe_test h.quiet h.legal h.pipe (hpoll.not_drained hr) hpoll, hr]
    rfl
  case consume =>
    rw [step_pipe_consume hquiet (handedOver_legal hl) rfl (hP ▸ htakes), handedOver_clearOut hr hu.reading,
      parsed_taken_withPipe hu.pipe]

/-! ## One in-band byte -/

/-- The byte `b` pending, with `rest` behind it in the transport. -/
def exposing (b : Byte) (rest : List Byte) (s : State) : State :=
  { s with queue := rest, F := { s.F with peek := b, ready := true } }

theorem exposing_of_pending {b : Byte} {rest : List Byte} {s : State} (hr : s.F.ready = true)
    (hb : s.F.peek = b) (hq : s.queue = rest) : exposing b rest s = s := by
  subst hb hq
  rw [exposing, ← hr]

/-- A byte pending, or an in-band byte at the head of the transport: after the poll it is pending. -/
theorem polled_exposing {s : State} {b : Byte} {rest : List Byte}
    (h : (s.F.ready = true ∧ s.F.peek = b ∧ s.queue = rest) ∨
      (s.F.ready = false ∧ s.F.buffering = false ∧ s.queue = b :: rest ∧ b ≠ Config.sent)) :
    Polled s (exposing b rest s) := by
  obtain ⟨hr, hb, hq⟩ | ⟨hr, hb, hq, hne⟩ := h
  · rw [exposing_of_pending hr hb hq]
    exact .idle (.inl hr)
  · exact .fed hr hq (.inBand b hr hb hne)

/-- Settles O56: the poll leaves the byte pending, and the loop's place is nothing to CONSUME. -/
theorem pipeParsesOneInBandByte : Obligations.PipeParsesOneInBandByte := by
  intro s b rest hl hp hreading hquiet hbyte
  have htest : AtTest s := ⟨hl, hp, hreading, hquiet⟩
  have hpoll : Polled s.clearOut (exposing b rest s.clearOut) := polled_exposing hbyte
  obtain ⟨i, r, o, htakes⟩ := hl.exists_parserTakes b
  obtain ⟨hdataReady, hread, hconsume⟩ := htest.three_steps hpoll rfl htakes
  refine ⟨_, _, _, hdataReady, hread, hconsume, rfl, ?handedOver, ?consumed⟩
  case handedOver =>
    rw [handedOver_eq rfl, ← hreading]
    rfl
  case consumed =>
    exact htakes.consume_eq (s := taken (exposing b rest s.clearOut)) (hl.of_filter rfl nofun hl.cursorInBuffer)

/-! ## A whole stream (R57 (e), R79) -/

/-- The bytes the parser will be given: the one pending, and the in-band bytes of the transport. -/
def bytesForParser (s : State) : List Byte := pendingBytes s ++ inBandBytes s.F.buffering s.queue

/-- How many bytes the block and the transport hold for the loop. -/
def bytesLeft (s : State) : Nat := s.queue.length + if s.F.ready then 1 else 0

theorem bytesLeft_eq_zero_iff (s : State) : bytesLeft s = 0 ↔ s.queue = [] ∧ s.F.ready = false := by
  simp [bytesLeft]

theorem bytesLeft_of_not_ready {s : State} (hr : s.F.ready = false) : bytesLeft s = s.queue.length := by
  simp [bytesLeft, hr]

theorem pendingBytes_of_not_ready {s : State} (hr : s.F.ready = false) : pendingBytes s = [] := by
  simp [pendingBytes, hr]

theorem bytesForParser_of_not_ready {s : State} (hr : s.F.ready = false) :
    bytesForParser s = inBandBytes s.F.buffering s.queue := by
  rw [bytesForParser, pendingBytes_of_not_ready hr, List.nil_append]

/-- A byte for the parser stays one when a poll takes it. -/
theorem Polled.bytesForParser_eq {s u : State} (h : Polled s u) : bytesForParser u = bytesForParser s := by
  cases h with
  | idle => rfl
  | @fed _ b rest i hr hq hstep =>
    have hqueue : u.queue = rest := hstep.queue_eq
    rw [bytesForParser_of_not_ready hr, bytesForParser, hqueue, hq]
    exact (hstep.inBandBytes_cons hr rest).symm

/-- Where there is a byte, a poll leaves all but one of them in the transport. -/
theorem Polled.bytesLeft_eq {s u : State} (h : Polled s u) (hmore : ¬ (s.queue = [] ∧ s.F.ready = false)) :
    bytesLeft s = u.queue.length + 1 := by
  cases h with
  | idle hidle =>
    have hr : s.F.ready = true := hidle.elim id fun hq => by simpa [hq] using hmore
    simp [bytesLeft, hr]
  | @fed _ b rest i hr hq hstep =>
    have hqueue : u.queue = rest := hstep.queue_eq
    simp [bytesLeft, hr, hq, hqueue]

/-- One turn of the loop, from its test in `s` to its test in `t`: at most three steps, one byte fewer left, and
of the bytes for the parser the parser has taken those that are no longer left. -/
structure PipeTurn (s t : State) : Prop where
  reached : ∃ m ≤ 3, ∀ n, Sys2Proof.core.run (n + m) s = Sys2Proof.core.run n t
  atTest : AtTest t
  fewer : bytesLeft s = bytesLeft t + 1
  parses : ∃ bs o, Parses s.P bs t.P o ∧ bytesForParser s = bs ++ bytesForParser t
  script : t.script = s.script

section Turn

variable {s u : State} (h : AtTest s) (hpoll : Polled s.clearOut u)
include h hpoll

/-- A turn on a byte that is not for the parser: DATAREADY alone. -/
theorem AtTest.turn_of_not_ready (hmore : ¬ (s.queue = [] ∧ s.F.ready = false)) (hr : u.F.ready = false) :
    PipeTurn s ((u.emit (.dataReady false)).withPipe .test) := by
  have hu := h.polled hpoll
  have hstep : step s = .next ((u.emit (.dataReady false)).withPipe .test) := by
    rw [step_pipe_test h.quiet h.legal h.pipe hmore hpoll, hr]
    rfl
  exact {
    reached := ⟨1, by decide, fun n => core_run_of_step n hstep⟩
    atTest := ⟨hu.legal.congr rfl rfl, rfl, hu.reading, hu.quiet⟩
    fewer := (hpoll.bytesLeft_eq hmore).trans (congrArg (· + 1) (bytesLeft_of_not_ready (s := u) hr).symm)
    parses := ⟨[], [], hpoll.parser_eq ▸ .nil u.P, hpoll.bytesForParser_eq.symm⟩
    script := hpoll.sameSchedule.script }

/-- A turn on a byte for the parser: DATAREADY, READ and CONSUME. -/
theorem AtTest.turn_of_ready {i : Instr} {r : ParserRegs} {o : List Output} (hr : u.F.ready = true)
    (htakes : ParserTakes u.P u.F.peek i r o) : PipeTurn s (parsed (taken u) r o) := by
  have hu := h.polled hpoll
  have hlegal : Legal (taken u) := hu.legal.of_filter rfl nofun hu.legal.cursorInBuffer
  have hpending : pendingBytes u = [u.F.peek] := by simp [pendingBytes, hr]
  have hbytes : bytesForParser u = [u.F.peek] ++ bytesForParser (parsed (taken u) r o) := by
    rw [bytesForParser, hpending]
    rfl
  obtain ⟨hdataReady, hread, hconsume⟩ := h.three_steps hpoll hr htakes
  have hreached (n : Nat) : Sys2Proof.core.run (n + 3) s = Sys2Proof.core.run n (parsed (taken u) r o) :=
    calc Sys2Proof.core.run (n + 3) s
      _ = Sys2Proof.core.run (n + 2) (answered u) := core_run_of_step _ hdataReady
      _ = Sys2Proof.core.run (n + 1) (handedOver (answered u)) := core_run_of_step _ hread
      _ = Sys2Proof.core.run n (parsed (taken u) r o) := core_run_of_step _ hconsume
  exact {
    reached := ⟨3, le_rfl, hreached⟩
    atTest := ⟨htakes.keeps_legal (s := taken u) hlegal, hu.pipe, hu.reading, hu.quiet⟩
    fewer := hpoll.bytesLeft_eq (hpoll.not_drained hr)
    parses := ⟨[u.F.peek], o, hpoll.parser_eq ▸ .singleton htakes, hpoll.bytesForParser_eq.symm.trans hbytes⟩
    script := hpoll.sameSchedule.script }

end Turn

theorem AtTest.exists_turn {s : State} (h : AtTest s) (hmore : ¬ (s.queue = [] ∧ s.F.ready = false)) :
    ∃ t, PipeTurn s t := by
  obtain ⟨u, hpoll⟩ := exists_polled (s := s.clearOut) (h.legal.congr rfl rfl)
  cases hr : u.F.ready with
  | false => exact ⟨_, h.turn_of_not_ready hpoll hmore hr⟩
  | true =>
    obtain ⟨i, r, o, htakes⟩ := (h.polled hpoll).legal.exists_parserTakes u.F.peek
    exact ⟨_, h.turn_of_ready hpoll hr htakes⟩

/-- What PIPE ends with (R79): all bytes drained, and the parser has taken those for it. -/
structure Drained (s t : State) : Prop where
  parses : ∃ o, Parses s.P (bytesForParser s) t.P o
  queue : t.queue = []
  pipe : t.pipe = .off
  ready : t.F.ready = false
  script : t.script = s.script

theorem PipeTurn.drained {s t v : State} (h : PipeTurn s t) (hd : Drained t v) : Drained s v := by
  obtain ⟨bs, o, hparses, hbytes⟩ := h.parses
  obtain ⟨o', hparses'⟩ := hd.parses
  exact ⟨⟨o ++ o', hbytes ▸ hparses.append hparses'⟩, hd.queue, hd.pipe, hd.ready, hd.script.trans h.script⟩

/-- By induction on the bytes left: a turn of the loop each, and one step that ends it. -/
theorem AtTest.exists_drained {s : State} (h : AtTest s) :
    ∃ n ≤ 3 * bytesLeft s + 1, ∃ t, Sys2Proof.core.run n s = .next t ∧ Drained s t := by
  generalize hk : bytesLeft s = k
  induction k generalizing s with
  | zero =>
    obtain ⟨hq, hr⟩ := (bytesLeft_eq_zero_iff s).1 hk
    refine ⟨1, le_rfl, s.clearOut.withPipe .off, core_run_of_step 0 (step_pipe_done h.quiet h.pipe hq hr), ?_, hq,
      rfl, hr, rfl⟩
    rw [bytesForParser_of_not_ready hr, hq]
    exact ⟨[], .nil s.P⟩
  | succ k ih =>
    obtain ⟨t, hturn⟩ := h.exists_turn (mt (bytesLeft_eq_zero_iff s).2 (by omega))
    obtain ⟨m, hm, hreached⟩ := hturn.reached
    obtain ⟨n, hn, v, hrun, hdrained⟩ := ih hturn.atTest (by have := hturn.fewer; omega)
    exact ⟨n + m, by omega, v, (hreached n).trans hrun, hturn.drained hdrained⟩

/-- Settles O58: PIPE's run by `AtTest.exists_drained`, and the run of CONSUMEs is the same parse. -/
theorem pipeParsesExactlyTheInBandBytes : Obligations.PipeParsesExactlyTheInBandBytes := by
  intro s hl hp hreading hquiet
  obtain ⟨n, hn, t, hrun, hdrained⟩ := AtTest.exists_drained ⟨hl, hp, hreading, hquiet⟩
  obtain ⟨o, hparses⟩ := hdrained.parses
  exact ⟨n, t, parsed s t.P o, hn, hrun, hparses.execAll_eq hl, rfl, hdrained.queue, hdrained.pipe,
    hdrained.ready, hdrained.script⟩

end Sys2Proof.Machine
end

section
/-! SUPPORT. What RESET leaves, and what the first operations after it answer: the statements of
70_reset_and_hazards.md. -/

namespace Sys2Proof.Machine

/-- RESET checks nothing: it answers from every state (R89, R90). -/
theorem exec_reset (s : State) :
    exec .reset s = .next (abandonConsumer (resetRegisters (s.epoch + 1) s)) := rfl

/-- The free value the cursor takes is brought into the buffer's range before it is held in 7 bits (R15, R89). -/
theorem resetRegisters_cursor_le (n : Nat) (s : State) :
    (resetRegisters n s).F.cursor.toNat ≤ Config.statusCap := by
  have hrange : Config.resetCursor n % (Config.statusCap + 1) < Config.statusCap + 1 :=
    Nat.mod_lt _ (Nat.succ_pos _)
  calc (resetRegisters n s).F.cursor.toNat
    _ = Config.resetCursor n % (Config.statusCap + 1) % 2 ^ 7 := BitVec.toNat_ofNat ..
    _ ≤ Config.resetCursor n % (Config.statusCap + 1) := Nat.mod_le ..
    _ ≤ Config.statusCap := Nat.le_of_lt_succ hrange

/-- Settles O45: the registers are those of `resetRegisters`, what is in progress ends by `abandonConsumer`, and
neither writes any other field. -/
theorem resetPutsTheBlockInItsResetState : Obligations.ResetPutsTheBlockInItsResetState := fun s =>
  ⟨_, exec_reset s, rfl, rfl, rfl, rfl, resetRegisters_cursor_le _ s, rfl, rfl, rfl, rfl, rfl, rfl, rfl,
    legal_after_reset s _⟩

/-- Settles O47: RESET leaves a legal state with no byte pending, the flag clear and the parser in IDLE, so the poll
of DATAREADY is idle on the empty transport and the frame-open byte is taken by P.IDLE_OPEN's row. -/
theorem firstAnswersAfterReset : Obligations.FirstAnswersAfterReset := by
  intro s hq
  refine ⟨_, exec_reset s, ?_⟩
  generalize ht : abandonConsumer (resetRegisters (s.epoch + 1) s) = t
  have hl : Legal t := ht ▸ legal_after_reset s _
  have hqueue : t.queue = [] := by simp [← ht, hq]
  have hready : t.F.ready = false := by simp [← ht]
  have hflag : t.connected = false := by simp [← ht]
  have hidle : t.P.state = ParserState.idle.code := by simp [← ht]
  refine ⟨⟨_, (Polled.idle (.inr hqueue)).dataReady_eq hl, ?_⟩, ⟨_, isConnectedReturnsTheFlag t hl, ?_⟩,
    ⟨_, (ParserTakes.opens hidle).consume_eq hl, rfl, ?_⟩⟩
  · rw [hready, State.emit_out]
  · rw [hflag]
  · exact List.append_nil t.out

end Sys2Proof.Machine
end
